-- ==== Sys2Proof/Word.lean ====
section
/-! DEFINITION. The widths of the engine's values (00_scope.md R7, R11): 8, 16 and 19 bits, all unsigned, bit 0 the least significant. -/

namespace Sys2Proof

/-- An input byte, DATA_WIDTH bits (R7). -/
abbrev Byte := BitVec 8

/-- An accumulator value, ACC_WIDTH bits (R7). -/
abbrev Word := BitVec 16

/-- A command word, CMD_WIDTH bits (R7, R34). -/
abbrev CmdWord := BitVec 19

end Sys2Proof
end

