-- ==== Sys2Proof/Syntax.lean ====
section
/-! DEFINITION. The commands (30_encoding.md R38), the reasons a word is reserved (R41), what a host can do to the engine between two
steps (R46, R47, R94), and the abstract form of assembler source (R44, R45). -/

namespace Sys2Proof

/-- The two algorithm variants (00_scope.md R2). No register holds one (10_state.md R16). -/
inductive Variant where
  | refl
  | xmodem
deriving DecidableEq, Repr

/-- The six commands of the command map (R38), one constructor per row; operands are bit vectors of the operand's width (R37). -/
inductive Instr where
  | crc16Init
  | xmodemInit
  | crc16Update (imm8 : Byte)
  | xmodemUpdate (imm8 : Byte)
  | load (imm16 : Word)
  | read
deriving DecidableEq, Repr

/-- The five sets of reserved words, one per row of R41's table. -/
inductive Reserved where
  /-- `cls = 00` with an operand. -/
  | initOperand
  /-- `cls = 01` with `arg[15:8]` not zero. -/
  | updateHighByte
  /-- `cls = 10` with `var = 1`. -/
  | loadVariant
  /-- `cls = 11`, `var = 0`, with an operand. -/
  | readOperand
  /-- `cls = 11` with `var = 1`. -/
  | readVariant
deriving DecidableEq, Repr

/-- What the host does to the engine: presents a command word (R46), takes the RESET step, which is not a command word (R94), or
presents nothing for a while (R47). -/
inductive HostEvent where
  | command (w : CmdWord)
  | reset
  | idle
deriving DecidableEq, Repr

/-- One line of assembler source after parsing (R44, R45): a command or a pseudo-instruction, operands as the numbers written. -/
inductive SourceCommand where
  | crc16Init
  | xmodemInit
  | crc16Update (imm8 : Nat)
  | xmodemUpdate (imm8 : Nat)
  | load (imm16 : Nat)
  | read
  | crc16Call (imm16 imm8 : Nat)
  | xmodemCall (imm16 imm8 : Nat)
  | crc16Bytes (bytes : List Nat)
  | xmodemBytes (bytes : List Nat)
  | crc16Checksum (bytes : List Nat)
  | xmodemChecksum (bytes : List Nat)
  | resume (imm16 : Nat)
deriving DecidableEq, Repr

end Sys2Proof
end

