-- ==== Sys2Proof/WellFormed.lean ====
section
/-! DEFINITION. Well-formedness. An `Instr` is well formed by its type: each operand is a bit vector of exactly the operand's width, and
all of its values are legal (30_encoding.md R37). What can be ill formed is a 19-bit word (R38, R41) and a line of source (R44). -/

namespace Sys2Proof

/-- One row of the command map (R38): a word belongs to the row exactly when `w & mask = pattern`. -/
structure CommandRow where
  mnemonic : String
  pattern  : CmdWord
  mask     : CmdWord
deriving DecidableEq, Repr

/-- R38's six rows. -/
def commandMap : List CommandRow :=
  [ ⟨"CRC16_INIT",    0x00000#19, 0x7FFFF#19⟩,
    ⟨"XMODEM_INIT",   0x10000#19, 0x7FFFF#19⟩,
    ⟨"CRC16_UPDATE",  0x20000#19, 0x7FF00#19⟩,
    ⟨"XMODEM_UPDATE", 0x30000#19, 0x7FF00#19⟩,
    ⟨"LOAD",          0x40000#19, 0x70000#19⟩,
    ⟨"READ",          0x60000#19, 0x7FFFF#19⟩ ]

/-- R38: the word matches the row. -/
def CommandRow.covers (r : CommandRow) (w : CmdWord) : Bool := w &&& r.mask == r.pattern

/-- A legal word matches some row; every other word is reserved (R38, R41). -/
def CmdWord.legal (w : CmdWord) : Bool := commandMap.any (·.covers w)

/-- R44: an `imm8` above 0xFF is an assembler error. -/
def imm8InRange (n : Nat) : Bool := n ≤ 0xFF

/-- R44: an `imm16` above 0xFFFF is an assembler error. -/
def imm16InRange (n : Nat) : Bool := n ≤ 0xFFFF

/-- Every operand of the line is in range (R44). -/
def SourceCommand.wellFormed : SourceCommand → Bool
  | .crc16Init => true
  | .xmodemInit => true
  | .crc16Update d => imm8InRange d
  | .xmodemUpdate d => imm8InRange d
  | .load v => imm16InRange v
  | .read => true
  | .crc16Call v d => imm16InRange v && imm8InRange d
  | .xmodemCall v d => imm16InRange v && imm8InRange d
  | .crc16Bytes ds => ds.all imm8InRange
  | .xmodemBytes ds => ds.all imm8InRange
  | .crc16Checksum ds => ds.all imm8InRange
  | .xmodemChecksum ds => ds.all imm8InRange
  | .resume v => imm16InRange v

end Sys2Proof
end

