-- ==== Sys2Proof/Decode.lean ====
section
/-! DEFINITION. Decoding and encoding of command words (30_encoding.md R34 to R41). `decode` is total on 19-bit words and rejects a
reserved word by the name of its set. -/

namespace Sys2Proof

/-- `w[18:17]`, the command class (R34, R35). -/
def CmdWord.cls (w : CmdWord) : BitVec 2 := w.extractLsb' 17 2

/-- `w[16]`, the variant (R34, R36). -/
def CmdWord.var (w : CmdWord) : BitVec 1 := w.extractLsb' 16 1

/-- `w[15:0]`, the operand (R34, R37). -/
def CmdWord.arg (w : CmdWord) : BitVec 16 := w.extractLsb' 0 16

/-- `arg[15:8]`. -/
def CmdWord.argHigh (w : CmdWord) : BitVec 8 := w.arg.extractLsb' 8 8

/-- `arg[7:0]`, the `imm8` of an UPDATE (R37). -/
def CmdWord.argLow (w : CmdWord) : BitVec 8 := w.arg.extractLsb' 0 8

/-- The word with the given fields, `{cls, var, arg}` (R34). -/
def CmdWord.ofFields (cls : BitVec 2) (var : BitVec 1) (arg : BitVec 16) : CmdWord := cls ++ var ++ arg

/-- Class INIT (R35, R37). -/
def decodeInit (w : CmdWord) : Except Reserved Instr :=
  if w.arg = 0x0000#16 then
    if w.var = 0#1 then .ok .crc16Init else .ok .xmodemInit
  else .error .initOperand

/-- Class UPDATE (R35, R37). -/
def decodeUpdate (w : CmdWord) : Except Reserved Instr :=
  if w.argHigh = 0x00#8 then
    if w.var = 0#1 then .ok (.crc16Update w.argLow) else .ok (.xmodemUpdate w.argLow)
  else .error .updateHighByte

/-- Class LOAD (R35 to R37). -/
def decodeLoad (w : CmdWord) : Except Reserved Instr :=
  if w.var = 0#1 then .ok (.load w.arg) else .error .loadVariant

/-- Class READ (R35 to R37). -/
def decodeRead (w : CmdWord) : Except Reserved Instr :=
  if w.var = 0#1 then
    if w.arg = 0x0000#16 then .ok .read else .error .readOperand
  else .error .readVariant

/-- R39: the decoder, total; all four classes are used (R35), and it depends on the word alone (R43). -/
def decode (w : CmdWord) : Except Reserved Instr :=
  if w.cls = 0b00#2 then decodeInit w
  else if w.cls = 0b01#2 then decodeUpdate w
  else if w.cls = 0b10#2 then decodeLoad w
  else decodeRead w

/-- The one encoding of a command, field by field (R38; R40 gives the same words as numbers). -/
def encode : Instr → CmdWord
  | .crc16Init => CmdWord.ofFields 0b00#2 0#1 0x0000#16
  | .xmodemInit => CmdWord.ofFields 0b00#2 1#1 0x0000#16
  | .crc16Update d => CmdWord.ofFields 0b01#2 0#1 (0x00#8 ++ d)
  | .xmodemUpdate d => CmdWord.ofFields 0b01#2 1#1 (0x00#8 ++ d)
  | .load v => CmdWord.ofFields 0b10#2 0#1 v
  | .read => CmdWord.ofFields 0b11#2 0#1 0x0000#16

/-- The command word whose bits are the number `w`, given as `nbits` bits (whole bytes, so 24 for a 19-bit row): none when a bit above
bit 18 is set, since no command word is longer than 19 bits (R34, R43; log entry 8). -/
def tableWord (nbits w : Nat) : Option CmdWord :=
  if w % 2 ^ nbits < 2 ^ 19 then some (BitVec.ofNat 19 (w % 2 ^ nbits)) else none

/-- What the decoder reads from the word of an opcode table row. A command word is presented whole (R46), so there is no byte order. -/
def decodeTableWord (nbits w : Nat) : Option Instr :=
  match tableWord nbits w with
  | none => none
  | some v =>
    match decode v with
    | .ok i => some i
    | .error _ => none

end Sys2Proof
end

