-- ==== Sys2Proof/Machine/Operands.lean ====
section
/-! DEFINITION. How an operand byte and the halves of the accumulator are read and placed (00_scope.md R11, 20_memory.md R27). These are
all the operand forms there are: no operand, an unsigned byte, an unsigned 16-bit value (30_encoding.md R37). -/

namespace Sys2Proof.Machine

/-- `zext_16(d)`, that is `{0x00, d}` (R11): where the reflected variant meets the byte (R27). -/
def zext16 (d : Byte) : Word := 0x00#8 ++ d

/-- `zext_16(d) << 8`, that is `{d, 0x00}` (R11): where the non-reflected variant meets the byte (R27). -/
def byteHigh (d : Byte) : Word := d ++ 0x00#8

/-- `c[7:0]`. -/
def lowByte (c : Word) : Byte := c.extractLsb' 0 8

/-- `c[15:8]`. -/
def highByte (c : Word) : Byte := c.extractLsb' 8 8

end Sys2Proof.Machine
end

