-- ==== Sys2Proof/Config.lean ====
section
/-! DEFINITION. The parameters of the engine (00_scope.md R7), each at the value this hardware takes, and the one free value of the
spec: what ACC holds after a reset (10_state.md R23). -/

namespace Sys2Proof.Config

/-- N_ITER (R7): shift-and-test iterations per byte. -/
def nIter : Nat := 8

/-- POLY_REFL (R7). -/
def polyRefl : Word := 0xA001#16

/-- POLY_NONREFL (R7). -/
def polyNonrefl : Word := 0x1021#16

/-- INIT_REFL (R7). -/
def initRefl : Word := 0xFFFF#16

/-- INIT_NONREFL (R7). -/
def initNonrefl : Word := 0x0000#16

/-- FREE VALUE (R23, R95; log entry 1, DESIGN CHOICE in its form): what ACC holds after reset number `n` of instance `unit`. It has no
body: nothing can be proved of it beyond its being a 16-bit value. -/
opaque resetAcc (unit n : Nat) : Word

end Sys2Proof.Config
end

