-- ==== Sys2Proof/Machine/State.lean ====
section
/-! DEFINITION. The state of one engine instance, its state after reset, and the ways a step can stop. -/

namespace Sys2Proof.Machine

/-- One engine instance with its host. The engine's own state is `acc` and nothing else (10_state.md R16); `rsp` is the record of what
the host has seen (R18); the last three fields are the model's own (log entries 2 and 3). -/
structure State where
  /-- ACC, the accumulator register (R14). -/
  acc     : Word
  /-- RSP, the values returned to the host since reset, oldest first (R18). -/
  rsp     : List Word
  /-- What the host does next, next event first: the host's bookkeeping of R19, not engine state (log entry 3). -/
  pending : List HostEvent
  /-- The model's name for this instance, which keys its reset draws; no command reads or writes it (log entry 2). -/
  unitTag : Nat
  /-- How many reset draws this instance has taken (R95: a fresh draw at each reset; log entry 2). -/
  draws   : Nat
deriving DecidableEq, Repr

/-- The engine has no fault: no command raises an exception, for any operand and any state (60_exceptions.md R84), and nothing in this
hardware is to be treated as a fault (93_implementation_defined.md section 1). The type has no constructor, so no step can answer one
(log entry 12). -/
inductive Fault : Type
deriving DecidableEq, Repr

/-- Why a step has no meaning. -/
inductive Refusal where
  /-- Raised by an arm of `exec` whose instruction has no meaning yet; no arm raises it now. Safe: nothing is claimed of such a run. -/
  | notModelled (mnemonic : String)
  /-- Raised by issuing a reserved command word, with the set of R41 it belongs to: the spec gives it no behaviour and a model refuses it
  (R42, R86). Safe: no claim can be proved of a run that holds one (log entry 5). -/
  | reservedWord (why : Reserved)
deriving DecidableEq, Repr

/-- The machine right after power-on, which is a RESET (R94): ACC is the first draw (R23: unspecified; log entry 1), RSP is empty (R23),
the host has presented nothing (log entry 3). -/
def State.reset : State where
  acc     := Config.resetAcc 0 0
  rsp     := []
  pending := []
  unitTag := 0
  draws   := 1

end Sys2Proof.Machine
end

