-- ==== Sys2Proof/Machine/Ops.lean ====
section
/-! DEFINITION. The operations the meanings share: the two pseudocode primitives `ACC <- v` and `emit(v)` (00_scope.md R12), the RESET
step (70_reset_and_hazards.md R94, R95), the host's presenting of events (R19), and the iteration `f^n` (R11).
There is no operation that takes an exception or returns from one: the engine has no trap mechanism (60_exceptions.md R89, R90). -/

namespace Sys2Proof.Machine

/-- `f^n(x)` (R11): `f^0(x) = x`, `f^(n+1)(x) = f(f^n(x))`. -/
def iter {α : Type} (f : α → α) : Nat → α → α
  | 0, x => x
  | n + 1, x => f (iter f n x)

/-- `ACC <- v` (R12). -/
def State.setAcc (v : Word) (s : State) : State := { s with acc := v }

/-- `emit(v)`: append `v` to RSP (R12, R18). -/
def State.emit (v : Word) (s : State) : State := { s with rsp := s.rsp ++ [v] }

/-- The RESET step (R94, R95): ACC takes a fresh draw, RSP becomes empty, there is no other state. -/
def State.takeReset (s : State) : State :=
  { s with acc := Config.resetAcc s.unitTag s.draws, rsp := [], draws := s.draws + 1 }

/-- The host will do `es` (before anything it already planned to do). -/
def State.present (es : List HostEvent) (s : State) : State := { s with pending := es ++ s.pending }

/-- The next event of the host and the state in which the host has issued it; none while the host presents nothing (R19, R47). -/
def State.nextEvent (s : State) : Option (HostEvent × State) :=
  match s.pending with
  | [] => none
  | e :: rest => some (e, { s with pending := rest })

/-- Continue after an outcome: a fault or a refusal ends the run. -/
def andThen {σ τ : Type} (o : Host.Outcome σ Fault Refusal) (f : σ → Host.Outcome τ Fault Refusal) :
    Host.Outcome τ Fault Refusal :=
  match o with
  | .next s => f s
  | .fault r => .fault r
  | .refused r => .refused r

end Sys2Proof.Machine
end

