-- ==== Sys2Proof/Machine/Nonreflected.lean ====
section
/-! DEFINITION. The non-reflected updater, polynomial 0x1021, and XMODEM_UPDATE (41_nonreflected_updater.md). -/

namespace Sys2Proof.Machine

/-- One non-reflected step (R58): test bit 15, shift left keeping 16 bits, exclusive-or the polynomial when the tested bit was 1. -/
def nonreflStep (P c : Word) : Word :=
  if c.getLsbD 15 then (c <<< 1) ^^^ P else c <<< 1

/-- The non-reflected byte update with the polynomial as an argument (R59, R8). -/
def nonreflUpdate (P c : Word) (d : Byte) : Word :=
  iter (nonreflStep P) Config.nIter (c ^^^ byteHigh d)

/-- `crc_xmodem_update` (R60): the polynomial is POLY_NONREFL. -/
def crcXmodemUpdate (c : Word) (d : Byte) : Word := nonreflUpdate Config.polyNonrefl c d

/-- XMODEM_UPDATE imm8 (R61): `ACC <- crc_xmodem_update(ACC, imm8)`. -/
def execXmodemUpdate (imm8 : Byte) (s : State) : Host.Outcome State Fault Refusal :=
  .next (s.setAcc (crcXmodemUpdate s.acc imm8))

end Sys2Proof.Machine
end

