-- ==== Sys2Proof/Machine/Reflected.lean ====
section
/-! DEFINITION. The reflected updater, polynomial 0xA001, and CRC16_UPDATE (40_reflected_updater.md). -/

namespace Sys2Proof.Machine

/-- One reflected step (R48): test bit 0, shift right logically, exclusive-or the polynomial when the tested bit was 1. -/
def reflStep (P c : Word) : Word :=
  if c.getLsbD 0 then (c >>> 1) ^^^ P else c >>> 1

/-- The reflected byte update with the polynomial as an argument (R49, R8). -/
def reflUpdate (P c : Word) (d : Byte) : Word :=
  iter (reflStep P) Config.nIter (c ^^^ zext16 d)

/-- `crc16_update` (R50): the polynomial is POLY_REFL. -/
def crc16Update (c : Word) (d : Byte) : Word := reflUpdate Config.polyRefl c d

/-- CRC16_UPDATE imm8 (R51): `ACC <- crc16_update(ACC, imm8)`. -/
def execCrc16Update (imm8 : Byte) (s : State) : Host.Outcome State Fault Refusal :=
  .next (s.setAcc (crc16Update s.acc imm8))

end Sys2Proof.Machine
end

