-- ==== Sys2Proof/Machine/Wrapper.lean ====
section
/-! DEFINITION. The streaming wrapper (42_streaming_wrapper.md): the commands that start, resume and read out a computation, and the
fold of an updater over a list of bytes. -/

namespace Sys2Proof.Machine

/-- The initial value of a variant (R68). -/
def initValue : Variant → Word
  | .refl => Config.initRefl
  | .xmodem => Config.initNonrefl

/-- The updater of a variant (R69). -/
def updateOf : Variant → Word → Byte → Word
  | .refl => crc16Update
  | .xmodem => crcXmodemUpdate

/-- The fold of a variant's updater over a list of bytes (R74). -/
def fold (V : Variant) : Word → List Byte → Word
  | c, [] => c
  | c, b :: bs => fold V (updateOf V c b) bs

/-- The source's `checksum` (R74): no finalisation step (R78). -/
def checksum (V : Variant) (bs : List Byte) : Word := fold V (initValue V) bs

/-- The INIT command of a variant (R70, R71). -/
def initOf : Variant → Instr
  | .refl => .crc16Init
  | .xmodem => .xmodemInit

/-- The UPDATE command of a variant (R51, R61). -/
def updateCmd : Variant → Byte → Instr
  | .refl, b => .crc16Update b
  | .xmodem, b => .xmodemUpdate b

/-- CRC16_INIT (R70): `ACC <- 0xFFFF`. -/
def execCrc16Init (s : State) : Host.Outcome State Fault Refusal :=
  .next (s.setAcc (initValue .refl))

/-- XMODEM_INIT (R71): `ACC <- 0x0000`. -/
def execXmodemInit (s : State) : Host.Outcome State Fault Refusal :=
  .next (s.setAcc (initValue .xmodem))

/-- LOAD imm16 (R72): `ACC <- imm16`, any value, nothing checked (R22). -/
def execLoad (imm16 : Word) (s : State) : Host.Outcome State Fault Refusal :=
  .next (s.setAcc imm16)

/-- READ (R73): `emit(ACC)`; ACC is unchanged. -/
def execRead (s : State) : Host.Outcome State Fault Refusal :=
  .next (s.emit s.acc)

end Sys2Proof.Machine
end

