-- ==== Sys2Proof/Machine/Dispatch.lean ====
section
/-! DEFINITION. The meaning of every command, one arm per row of the command map (30_encoding.md R38). -/

namespace Sys2Proof.Machine

def exec (i : Instr) (s : State) : Host.Outcome State Fault Refusal :=
  match i with
  | .crc16Init => Sys2Proof.Machine.execCrc16Init s
  | .xmodemInit => Sys2Proof.Machine.execXmodemInit s
  | .crc16Update imm8 => Sys2Proof.Machine.execCrc16Update imm8 s
  | .xmodemUpdate imm8 => Sys2Proof.Machine.execXmodemUpdate imm8 s
  | .load imm16 => Sys2Proof.Machine.execLoad imm16 s
  | .read => Sys2Proof.Machine.execRead s

end Sys2Proof.Machine
end

