-- ==== Sys2Proof/Machine/Issue.lean ====
section
/-! DEFINITION. What one host event does to the engine: a command word is decoded and executed, or refused when it is reserved
(30_encoding.md R42); RESET (70_reset_and_hazards.md R94); an idle period (R47). -/

namespace Sys2Proof.Machine

/-- Execute a command word (R31, R42). -/
def issueWord (w : CmdWord) (s : State) : Host.Outcome State Fault Refusal :=
  match decode w with
  | .ok i => exec i s
  | .error why => .refused (.reservedWord why)

/-- The effect of one host event. -/
def applyEvent (e : HostEvent) (s : State) : Host.Outcome State Fault Refusal :=
  match e with
  | .command w => issueWord w s
  | .reset => .next s.takeReset
  | .idle => .next s

/-- A table word laid before the engine as the host's next event; a number that is no 19-bit word cannot be presented, and then the
state is unchanged (log entry 8). -/
def presentTableWord (nbits w : Nat) (s : State) : State :=
  match tableWord nbits w with
  | some v => s.present [.command v]
  | none => s

end Sys2Proof.Machine
end

