-- ==== Sys2Proof/Machine/Step.lean ====
section
/-! DEFINITION. One step: the host's next event takes effect (20_memory.md R31, R32). While the host presents nothing, nothing changes
(30_encoding.md R47; log entry 4). -/

namespace Sys2Proof.Machine

def step (s : State) : Host.Outcome State Fault Refusal :=
  match s.nextEvent with
  | none => .next s
  | some (e, s') => applyEvent e s'

/-- The state in which the host presents that word next, before anything it planned: the engine fetches nothing (10_state.md R19), so
this is all a command needs to run (log entry 3). -/
def State.withFetchWord (s : State) (nbits w : Nat) : State := presentTableWord nbits w s

end Sys2Proof.Machine
end

