-- ==== Sys2Proof/Machine/Run.lean ====
section
/-! DEFINITION. Runs (10_state.md R19): several steps, a list of commands, and the command lists of the source's call shapes
(42_streaming_wrapper.md R79, R80; 30_encoding.md R45). -/

namespace Sys2Proof.Machine

/-- `n` steps. -/
def runSteps : Nat → State → Host.Outcome State Fault Refusal
  | 0, s => .next s
  | n + 1, s => andThen (step s) (runSteps n)

/-- The commands of a list executed in order, each seeing the ACC the one before left (R19, R32). -/
def runCommands : List Instr → State → Host.Outcome State Fault Refusal
  | [], s => .next s
  | i :: is, s => andThen (exec i s) (runCommands is)

/-- The host presents the commands in order, one word each (R34, R46). -/
def eventsOf (is : List Instr) : List HostEvent := is.map fun i => .command (encode i)

/-- `CRC16_BYTES` and `XMODEM_BYTES` (R45): one UPDATE per byte, in order; none for no byte. -/
def updateCmds (V : Variant) (bs : List Byte) : List Instr := bs.map (updateCmd V)

/-- `CRC16_CHECKSUM` and `XMODEM_CHECKSUM` (R45, R79). -/
def checksumCmds (V : Variant) (bs : List Byte) : List Instr := initOf V :: (updateCmds V bs ++ [.read])

/-- `CRC16_CALL` and `XMODEM_CALL` (R45, R80). -/
def callCmds (V : Variant) (a : Word) (b : Byte) : List Instr := [.load a, updateCmd V b, .read]

end Sys2Proof.Machine
end

