-- ==== Sys2Proof/Machine/Assembler.lean ====
section
/-! DEFINITION. Assembler text and pseudo-instructions (30_encoding.md R44, R45). No tool exists for the engine; this is the notation of
95_test_vectors.md. What R44 leaves open about spacing and letter case is log entry 11. A line is a list of characters. -/

namespace Sys2Proof.Machine

/-- Why a line of source is no command (R44). -/
inductive AsmError where
  /-- The line's first word is none of the six mnemonics and seven pseudo-instructions. -/
  | mnemonic
  /-- The operands are not of the form R44 or R45 gives the mnemonic. -/
  | operands
  /-- An operand is out of range. -/
  | outOfRange
deriving DecidableEq, Repr

/-- A command or pseudo-instruction with its operands in range, expanded (R45). -/
def expand : SourceCommand → List Instr
  | .crc16Init => [.crc16Init]
  | .xmodemInit => [.xmodemInit]
  | .crc16Update d => [.crc16Update (BitVec.ofNat 8 d)]
  | .xmodemUpdate d => [.xmodemUpdate (BitVec.ofNat 8 d)]
  | .load v => [.load (BitVec.ofNat 16 v)]
  | .read => [.read]
  | .crc16Call v d => callCmds .refl (BitVec.ofNat 16 v) (BitVec.ofNat 8 d)
  | .xmodemCall v d => callCmds .xmodem (BitVec.ofNat 16 v) (BitVec.ofNat 8 d)
  | .crc16Bytes ds => updateCmds .refl (ds.map (BitVec.ofNat 8))
  | .xmodemBytes ds => updateCmds .xmodem (ds.map (BitVec.ofNat 8))
  | .crc16Checksum ds => checksumCmds .refl (ds.map (BitVec.ofNat 8))
  | .xmodemChecksum ds => checksumCmds .xmodem (ds.map (BitVec.ofNat 8))
  | .resume v => [.load (BitVec.ofNat 16 v)]

/-- R44: an operand out of range is an assembler error, not a command. -/
def assemble (c : SourceCommand) : Except AsmError (List Instr) :=
  if c.wellFormed then .ok (expand c) else .error .outOfRange

/-- The value of a hexadecimal digit. -/
def hexValue (c : Char) : Option Nat :=
  if 0x30 ≤ c.toNat ∧ c.toNat ≤ 0x39 then some (c.toNat - 0x30)
  else if 0x41 ≤ c.toNat ∧ c.toNat ≤ 0x46 then some (c.toNat - 0x41 + 10)
  else if 0x61 ≤ c.toNat ∧ c.toNat ≤ 0x66 then some (c.toNat - 0x61 + 10)
  else none

/-- A printable ASCII character (R44). -/
def printable (c : Char) : Bool := 0x20 ≤ c.toNat && c.toNat ≤ 0x7E

/-- Exactly `k` hexadecimal digits, and what follows them. -/
def readHex : Nat → Nat → List Char → Option (Nat × List Char)
  | 0, n, cs => some (n, cs)
  | _ + 1, _, [] => none
  | k + 1, n, c :: cs =>
    match hexValue c with
    | some v => readHex k (16 * n + v) cs
    | none => none

/-- An `imm8`: `0x` and two digits, or one printable character in single quotes (R44). -/
def readImm8 : List Char → Option (Nat × List Char)
  | '0' :: 'x' :: cs => readHex 2 0 cs
  | '\'' :: c :: '\'' :: cs => if printable c then some (c.toNat, cs) else none
  | _ => none

/-- An `imm16`: `0x` and four digits (R44). -/
def readImm16 : List Char → Option (Nat × List Char)
  | '0' :: 'x' :: cs => readHex 4 0 cs
  | _ => none

/-- The text after leading spaces. -/
def skipSpaces (cs : List Char) : List Char := cs.dropWhile (· == ' ')

/-- Nothing but spaces is left. -/
def ended (cs : List Char) : Bool := (skipSpaces cs).isEmpty

/-- The text after a comma and the spaces around it. -/
def afterComma (cs : List Char) : Option (List Char) :=
  match skipSpaces cs with
  | ',' :: rest => some (skipSpaces rest)
  | _ => none

/-- The operand list of a `..._BYTES` or `..._CHECKSUM` (R45), at most `fuel` operands. -/
def readBytes : Nat → List Char → Option (List Nat)
  | 0, _ => none
  | fuel + 1, cs =>
    match readImm8 cs with
    | none => none
    | some (d, rest) =>
      if ended rest then some [d]
      else match afterComma rest with
        | none => none
        | some more => (readBytes fuel more).map (d :: ·)

/-- The rest of a double-quoted ASCII string, each character standing for its code (R45). -/
def readString : List Char → Option (List Nat)
  | [] => none
  | c :: cs =>
    if c = '"' then (if ended cs then some [] else none)
    else if c.toNat < 0x80 then (readString cs).map (c.toNat :: ·)
    else none

/-- A list of bytes: none at all, a string, or operands between commas (R45). -/
def readByteList : List Char → Option (List Nat)
  | [] => some []
  | '"' :: cs => readString cs
  | cs => readBytes cs.length cs

/-- No operand may follow. -/
def withNone (c : SourceCommand) (cs : List Char) : Except AsmError SourceCommand :=
  if ended cs then .ok c else .error .operands

/-- One operand follows, read by `r`, and nothing after it. -/
def withOne (r : List Char → Option (Nat × List Char)) (mk : Nat → SourceCommand) (cs : List Char) :
    Except AsmError SourceCommand :=
  match r cs with
  | some (n, rest) => if ended rest then .ok (mk n) else .error .operands
  | none => .error .operands

/-- An `imm16`, a comma and an `imm8` follow (R45). -/
def withCall (mk : Nat → Nat → SourceCommand) (cs : List Char) : Except AsmError SourceCommand :=
  match readImm16 cs with
  | some (v, rest) =>
    match afterComma rest with
    | some more => withOne readImm8 (mk v) more
    | none => .error .operands
  | none => .error .operands

/-- A list of bytes follows (R45). -/
def withBytes (mk : List Nat → SourceCommand) (cs : List Char) : Except AsmError SourceCommand :=
  match readByteList cs with
  | some ds => .ok (mk ds)
  | none => .error .operands

/-- The characters of the mnemonics (R38, R44). -/
def textCrc16Init : List Char := ['C', 'R', 'C', '1', '6', '_', 'I', 'N', 'I', 'T']
def textXmodemInit : List Char := ['X', 'M', 'O', 'D', 'E', 'M', '_', 'I', 'N', 'I', 'T']
def textCrc16Update : List Char := ['C', 'R', 'C', '1', '6', '_', 'U', 'P', 'D', 'A', 'T', 'E']
def textXmodemUpdate : List Char := ['X', 'M', 'O', 'D', 'E', 'M', '_', 'U', 'P', 'D', 'A', 'T', 'E']
def textLoad : List Char := ['L', 'O', 'A', 'D']
def textRead : List Char := ['R', 'E', 'A', 'D']
def textCrc16Call : List Char := ['C', 'R', 'C', '1', '6', '_', 'C', 'A', 'L', 'L']
def textXmodemCall : List Char := ['X', 'M', 'O', 'D', 'E', 'M', '_', 'C', 'A', 'L', 'L']
def textCrc16Bytes : List Char := ['C', 'R', 'C', '1', '6', '_', 'B', 'Y', 'T', 'E', 'S']
def textXmodemBytes : List Char := ['X', 'M', 'O', 'D', 'E', 'M', '_', 'B', 'Y', 'T', 'E', 'S']
def textCrc16Checksum : List Char := ['C', 'R', 'C', '1', '6', '_', 'C', 'H', 'E', 'C', 'K', 'S', 'U', 'M']
def textXmodemChecksum : List Char := ['X', 'M', 'O', 'D', 'E', 'M', '_', 'C', 'H', 'E', 'C', 'K', 'S', 'U', 'M']
def textResume : List Char := ['R', 'E', 'S', 'U', 'M', 'E']

/-- The command a mnemonic and the text after it stand for (R44, R45). -/
def parseNamed (name rest : List Char) : Except AsmError SourceCommand :=
  if name = textCrc16Init then withNone .crc16Init rest
  else if name = textXmodemInit then withNone .xmodemInit rest
  else if name = textCrc16Update then withOne readImm8 .crc16Update rest
  else if name = textXmodemUpdate then withOne readImm8 .xmodemUpdate rest
  else if name = textLoad then withOne readImm16 .load rest
  else if name = textRead then withNone .read rest
  else if name = textCrc16Call then withCall .crc16Call rest
  else if name = textXmodemCall then withCall .xmodemCall rest
  else if name = textCrc16Bytes then withBytes .crc16Bytes rest
  else if name = textXmodemBytes then withBytes .xmodemBytes rest
  else if name = textCrc16Checksum then withBytes .crc16Checksum rest
  else if name = textXmodemChecksum then withBytes .xmodemChecksum rest
  else if name = textResume then withOne readImm16 .resume rest
  else .error .mnemonic

/-- The line without its comment: a `;` starts one to the end of the line (R44), but for a `;` inside quotes. The flag says that the text
stands inside a double-quoted string. -/
def stripComment : Bool → List Char → List Char
  | true, '"' :: cs => '"' :: stripComment false cs
  | true, c :: cs => c :: stripComment true cs
  | false, '\'' :: c :: '\'' :: cs => '\'' :: c :: '\'' :: stripComment false cs
  | false, '"' :: cs => '"' :: stripComment true cs
  | false, ';' :: _ => []
  | false, c :: cs => c :: stripComment false cs
  | _, [] => []

/-- One line of source (R44): one command or pseudo-instruction, or none on a line of spaces and comment only. -/
def parseLine (line : List Char) : Except AsmError (Option SourceCommand) :=
  let text := skipSpaces (stripComment false line)
  let name := text.takeWhile (· != ' ')
  if name.isEmpty then .ok none
  else match parseNamed name (skipSpaces (text.drop name.length)) with
    | .ok c => .ok (some c)
    | .error e => .error e

/-- The commands of one line. -/
def assembleLine (line : List Char) : Except AsmError (List Instr) :=
  match parseLine line with
  | .ok none => .ok []
  | .ok (some c) => assemble c
  | .error e => .error e

/-- The commands of a text, line after line; the first line in error ends it. -/
def assembleLines : List (List Char) → Except AsmError (List Instr)
  | [] => .ok []
  | l :: ls =>
    match assembleLine l, assembleLines ls with
    | .ok is, .ok js => .ok (is ++ js)
    | .error e, _ => .error e
    | .ok _, .error e => .error e

/-- A hexadecimal digit, upper case. -/
def hexDigit (n : Nat) : Char := if n < 10 then Char.ofNat (0x30 + n) else Char.ofNat (0x41 + (n - 10))

/-- `0x` and two digits (R44). -/
def byteText (d : Byte) : List Char :=
  ['0', 'x', hexDigit (d.toNat / 16), hexDigit (d.toNat % 16)]

/-- `0x` and four digits (R44). -/
def wordText (v : Word) : List Char :=
  ['0', 'x', hexDigit (v.toNat / 4096), hexDigit (v.toNat / 256 % 16), hexDigit (v.toNat / 16 % 16), hexDigit (v.toNat % 16)]

/-- The text of a command (R44). -/
def commandText : Instr → List Char
  | .crc16Init => textCrc16Init
  | .xmodemInit => textXmodemInit
  | .crc16Update d => textCrc16Update ++ ' ' :: byteText d
  | .xmodemUpdate d => textXmodemUpdate ++ ' ' :: byteText d
  | .load v => textLoad ++ ' ' :: wordText v
  | .read => textRead

end Sys2Proof.Machine
end

