-- ==== Sys2Proof/Machine/Instances.lean ====
section
/-! DEFINITION. Several engine instances in one system (10_state.md R20, 60_exceptions.md R93): a list of states that share nothing.
How many there are is not a property of the engine (log entry 10). -/

namespace Sys2Proof.Machine

/-- A system of engine instances, numbered from 0. -/
abbrev System := List State

/-- An event the host sends to instance `k`; an instance that is not there receives nothing. -/
def systemEvent (k : Nat) (e : HostEvent) (sys : System) : Host.Outcome System Fault Refusal :=
  match sys[k]? with
  | none => .next sys
  | some s => andThen (applyEvent e s) fun s' => .next (sys.set k s')

/-- Events sent to the instances one after another, each with the number of its instance: one interleaving. -/
def systemRun : List (Nat × HostEvent) → System → Host.Outcome System Fault Refusal
  | [], sys => .next sys
  | (k, e) :: es, sys => andThen (systemEvent k e sys) (systemRun es)

/-- Events applied to one engine alone. -/
def engineRun : List HostEvent → State → Host.Outcome State Fault Refusal
  | [], s => .next s
  | e :: es, s => andThen (applyEvent e s) (engineRun es)

/-- The events of an interleaving that go to instance `k`, in order. -/
def eventsFor (k : Nat) : List (Nat × HostEvent) → List HostEvent
  | [] => []
  | (j, e) :: es => if j = k then e :: eventsFor k es else eventsFor k es

end Sys2Proof.Machine
end

