-- ==== Sys2Proof/Machine/Port.lean ====
section
/-! DEFINITION. The port-level interface (30_encoding.md R46) over the command-level machine: one clock cycle, what the host drives in it
and what the engine drives back. The clock edge is the step from one cycle to the next (log entry 9). -/

namespace Sys2Proof.Machine

/-- What the host drives in one cycle (R46). `cmdWord` is sampled only when `cmdValid` holds. -/
structure PortIn where
  rst      : Bool
  cmdValid : Bool
  cmdWord  : CmdWord
deriving DecidableEq, Repr

/-- What the engine drives in one cycle (R46). `rspData` is `none` exactly when `rsp_valid = 0`: the spec gives the data lines a value
only when `rsp_valid = 1`. -/
structure PortOut where
  cmdReady : Bool
  rspData  : Option Word
deriving DecidableEq, Repr

/-- `rsp_valid` (R46). -/
def rspValid (o : PortOut) : Bool := o.rspData.isSome

/-- The command-level event of a cycle: reset beats a command presented in the same cycle (R94), and a cycle with neither is idle (R47). -/
def portEvent (i : PortIn) : HostEvent :=
  if i.rst then .reset else if i.cmdValid then .command i.cmdWord else .idle

/-- The engine's outputs in a cycle: `cmd_ready` is constant 1; a response is valid in exactly the cycles in which a READ is accepted, and
carries the ACC before the clock edge (R46). -/
def portOut (i : PortIn) (s : State) : PortOut where
  cmdReady := true
  rspData :=
    match portEvent i with
    | .command w => match decode w with
      | .ok .read => some s.acc
      | _ => none
    | _ => none

/-- One cycle: the next state and the outputs; a reserved word is refused as at the command level (R42). -/
def portCycle (i : PortIn) (s : State) : Host.Outcome (State × PortOut) Fault Refusal :=
  andThen (applyEvent (portEvent i) s) fun s' => .next (s', portOut i s)

/-- Several cycles, with the outputs of each in order. -/
def portRun : List PortIn → State → Host.Outcome (State × List PortOut) Fault Refusal
  | [], s => .next (s, [])
  | i :: is, s => andThen (portCycle i s) fun p => andThen (portRun is p.1) fun q => .next (q.1, p.2 :: q.2)

end Sys2Proof.Machine
end

