-- ==== Sys2Proof/Safety.lean ====
section
/-! DEFINITION. What counts as a safe run, and the host's obligations that the engine does not check (70_reset_and_hazards.md R96 to R102).
No meaning looks at any of these: breaking R96 to R100 is computed like anything else (60_exceptions.md R85). -/

namespace Sys2Proof.Machine

/-- The run of `n` steps is never refused (it cannot fault: R84). -/
def SafeRun (n : Nat) (s : State) : Prop := ∃ s', runSteps n s = .next s'

/-- R102, of one event: it is not a reserved command word. -/
def eventLegal : HostEvent → Bool
  | .command w => w.legal
  | .reset => true
  | .idle => true

/-- R102, of all that the host still plans to do. -/
def HostContract (s : State) : Prop := ∀ e ∈ s.pending, eventLegal e = true

/-- The boot requirement (R96) of a command list issued after reset: the first command sets ACC, so no UPDATE or READ comes before an INIT
or a LOAD. It asks nothing of the variants, so it holds of lists that break R99. -/
def keepsBoot : List Instr → Bool
  | [] => true
  | .crc16Init :: _ => true
  | .xmodemInit :: _ => true
  | .crc16Update _ :: _ => false
  | .xmodemUpdate _ :: _ => false
  | .load _ :: _ => true
  | .read :: _ => false

/-- Where a stream stands, as the host must keep track of it: the engine does not (10_state.md R16, R21). -/
inductive StreamAt where
  /-- Nothing begun since reset. -/
  | unbegun
  /-- Begun by LOAD: the first UPDATE says its variant (R72; log entry 13). -/
  | loaded
  /-- A stream of that variant. -/
  | running (V : Variant)
deriving DecidableEq, Repr

/-- One UPDATE under R96 and R99. -/
def updateKeeps (V : Variant) : StreamAt → Option StreamAt
  | .unbegun => none
  | .loaded => some (.running V)
  | .running W => if V = W then some (.running W) else none

/-- One command under the boot requirement (R96) and one variant per stream (R99): the stream after it, none where it breaks either. -/
def commandKeeps : Instr → StreamAt → Option StreamAt
  | .crc16Init, _ => some (.running .refl)
  | .xmodemInit, _ => some (.running .xmodem)
  | .crc16Update _, st => updateKeeps .refl st
  | .xmodemUpdate _, st => updateKeeps .xmodem st
  | .load _, _ => some .loaded
  | .read, st => if st = .unbegun then none else some st

/-- A command list that keeps R96 and R99, from where the stream stands. -/
def keepsContracts : StreamAt → List Instr → Bool
  | _, [] => true
  | st, i :: is =>
    match commandKeeps i st with
    | some st' => keepsContracts st' is
    | none => false

end Sys2Proof.Machine
end

