-- ==== Sys2Proof/Certificates/Slice0/Obligations.lean ====
section
/-! DEFINITION. The statements for the provers, each from the numbered rules of spec/ that its docstring names. -/

open Sys2Proof Sys2Proof.Machine

/-! ### Encoding (30_encoding.md) -/

/-- Words written out bit by bit from the patterns of R38, for every row. -/
def Obligations.WrittenOutWordsDecode : Prop :=
  decode 0b0000000000000000000#19 = .ok .crc16Init ∧
  decode 0b0010000000000000000#19 = .ok .xmodemInit ∧
  decode 0b0100000000000110001#19 = .ok (.crc16Update 0x31#8) ∧
  decode 0b0110000000011111111#19 = .ok (.xmodemUpdate 0xFF#8) ∧
  decode 0b1000011000010111010#19 = .ok (.load 0x30BA#16) ∧
  decode 0b1100000000000000000#19 = .ok .read

/-- R38: a word encodes the command of a row exactly when `w & mask = match`, its operand the pattern's letters; the rows are pairwise
disjoint; a word matching none is reserved; 66051 words are legal. -/
def Obligations.DecodeFollowsCommandMap : Prop :=
  (∀ w : CmdWord,
    (decode w = .ok .crc16Init ↔ w &&& 0x7FFFF#19 = 0x00000#19) ∧
    (decode w = .ok .xmodemInit ↔ w &&& 0x7FFFF#19 = 0x10000#19) ∧
    (∀ d, decode w = .ok (.crc16Update d) ↔ w &&& 0x7FF00#19 = 0x20000#19 ∧ w.extractLsb' 0 8 = d) ∧
    (∀ d, decode w = .ok (.xmodemUpdate d) ↔ w &&& 0x7FF00#19 = 0x30000#19 ∧ w.extractLsb' 0 8 = d) ∧
    (∀ v, decode w = .ok (.load v) ↔ w &&& 0x70000#19 = 0x40000#19 ∧ w.extractLsb' 0 16 = v) ∧
    (decode w = .ok .read ↔ w &&& 0x7FFFF#19 = 0x60000#19) ∧
    ((∃ why, decode w = .error why) ↔ ∀ r ∈ commandMap, w &&& r.mask ≠ r.pattern)) ∧
  commandMap.Pairwise (fun r r' => ∀ w : CmdWord, ¬(w &&& r.mask = r.pattern ∧ w &&& r'.mask = r'.pattern)) ∧
  ((Finset.range 524288).filter fun n => CmdWord.legal (BitVec.ofNat 19 n) = true).card = 66051

/-- The number of words the decoder rejects for a given reason. -/
def Sys2Proof.Machine.reservedCount (why : Reserved) : Nat :=
  ((List.range 524288).filter fun n =>
    match decode (BitVec.ofNat 19 n) with
    | .ok _ => false
    | .error e => e == why).length

/-- R41: the reserved words are all words that match no row, in five sets, each with its count, 458237 in number. -/
def Obligations.ReservedWordsAreTheFiveSets : Prop :=
  (∀ w : CmdWord,
    (CmdWord.legal w = false ↔ ∃ why, decode w = .error why) ∧
    (decode w = .error .initOperand ↔
      (0x00001 ≤ w.toNat ∧ w.toNat ≤ 0x0FFFF) ∨ (0x10001 ≤ w.toNat ∧ w.toNat ≤ 0x1FFFF)) ∧
    (decode w = .error .updateHighByte ↔
      (0x20100 ≤ w.toNat ∧ w.toNat ≤ 0x2FFFF) ∨ (0x30100 ≤ w.toNat ∧ w.toNat ≤ 0x3FFFF)) ∧
    (decode w = .error .loadVariant ↔ 0x50000 ≤ w.toNat ∧ w.toNat ≤ 0x5FFFF) ∧
    (decode w = .error .readOperand ↔ 0x60001 ≤ w.toNat ∧ w.toNat ≤ 0x6FFFF) ∧
    (decode w = .error .readVariant ↔ 0x70000 ≤ w.toNat ∧ w.toNat ≤ 0x7FFFF)) ∧
  reservedCount .initOperand = 131070 ∧ reservedCount .updateHighByte = 130560 ∧ reservedCount .loadVariant = 65536 ∧
  reservedCount .readOperand = 65535 ∧ reservedCount .readVariant = 65536 ∧
  131070 + 130560 + 65536 + 65535 + 65536 = 458237 ∧ 458237 = 524288 - 66051

/-- R40: the words of the commands as numbers; decode and encode are inverse; encode is injective. -/
def Obligations.EncodeAndDecodeAreInverse : Prop :=
  encode .crc16Init = 0x00000#19 ∧ encode .xmodemInit = 0x10000#19 ∧
  (∀ d : Byte, encode (.crc16Update d) = 0x20000#19 + d.setWidth 19) ∧
  (∀ d : Byte, encode (.xmodemUpdate d) = 0x30000#19 + d.setWidth 19) ∧
  (∀ v : Word, encode (.load v) = 0x40000#19 + v.setWidth 19) ∧
  encode .read = 0x60000#19 ∧
  (∀ i, decode (encode i) = .ok i) ∧
  (∀ w i, decode w = .ok i → encode i = w) ∧
  Function.Injective encode

/-! ### The reflected updater (40_reflected_updater.md) -/

/-- R48: both arms, and what every bit of the result is. -/
def Obligations.ReflectedStepShiftsRightAndTests : Prop :=
  ∀ P c : Word,
    (c.getLsbD 0 = true → reflStep P c = (c >>> 1) ^^^ P) ∧
    (c.getLsbD 0 = false → reflStep P c = c >>> 1) ∧
    ∀ j, j < 16 → (reflStep P c).getLsbD j = Bool.xor (c.getLsbD (j + 1)) (c.getLsbD 0 && P.getLsbD j)

/-- R49, R50: the byte meets `c[7:0]`, then exactly eight steps, for any polynomial; `crc16_update` fixes 0xA001; the two worked traces
end where R50 says (the first is the source's anchor, 90_conflicts.md C1). -/
def Obligations.ReflectedUpdateIsEightSteps : Prop :=
  (∀ (P c : Word) (d : Byte),
    reflUpdate P c d =
      reflStep P (reflStep P (reflStep P (reflStep P (reflStep P (reflStep P (reflStep P (reflStep P (c ^^^ d.setWidth 16))))))))) ∧
  (∀ (c : Word) (d : Byte), crc16Update c d = reflUpdate 0xA001#16 c d) ∧
  crc16Update 0xFFFF#16 0x00#8 = 0x40BF#16 ∧ crc16Update 0x1234#16 0x56#8 = 0xE993#16

/-- R53: the table form, with the table of 95_test_vectors.md section 4, equals the bit-serial definition on every input. -/
def Obligations.ReflectedTableFormAgrees : Prop :=
  (∀ i : Byte, tRefl i = crc16Update 0x0000#16 i) ∧
  (∀ (c : Word) (d : Byte), crc16Update c d = (0x00#8 ++ c.extractLsb' 8 8) ^^^ tRefl (c.extractLsb' 0 8 ^^^ d)) ∧
  (∀ (c : Word) (d : Byte), crc16UpdateByTable c d = crc16Update c d)

/-- R54: linear over exclusive-or (one step for any polynomial, and the update), and the network of the sixteen constants. -/
def Obligations.ReflectedUpdateIsLinear : Prop :=
  (∀ P a b : Word, reflStep P (a ^^^ b) = reflStep P a ^^^ reflStep P b) ∧
  (∀ (c c' : Word) (d d' : Byte), crc16Update (c ^^^ c') (d ^^^ d') = crc16Update c d ^^^ crc16Update c' d') ∧
  crc16Update 0x0000#16 0x00#8 = 0x0000#16 ∧
  (∀ i, i < 16 → wRefl[i]? = some (crc16Update (1#16 <<< i) 0x00#8)) ∧
  (∀ (c : Word) (d : Byte), crc16Update c d = crc16UpdateByNetwork c d)

/-- R55: for a fixed byte a bijection, and how one step is undone. -/
def Obligations.ReflectedUpdateIsBijective : Prop :=
  (∀ d : Byte, Function.Bijective fun c : Word => crc16Update c d) ∧
  (∀ c : Word, let r := reflStep 0xA001#16 c
    c = (r.extractLsb' 0 15 ^^^ (if r.getLsbD 15 then (0xA001#16).extractLsb' 0 15 else 0#15)) ++ r.extractLsb' 15 1)

/-- R56: the byte-folding identities, and a message followed by its checksum low byte first. -/
def Obligations.ReflectedByteFolding : Prop :=
  (∀ (c : Word) (d : Byte), crc16Update c d = crc16Update (c ^^^ d.setWidth 16) 0x00#8) ∧
  (∀ c : Word, crc16Update c (lowByte c) = 0x00#8 ++ highByte c) ∧
  (∀ c : Word, crc16Update (crc16Update c (lowByte c)) (highByte c) = 0x0000#16) ∧
  (∀ (c : Word) (bs : List Byte),
    fold .refl c (bs ++ [lowByte (fold .refl c bs), highByte (fold .refl c bs)]) = 0x0000#16)

/-! ### The non-reflected updater (41_nonreflected_updater.md) -/

/-- R58: both arms, and what every bit of the result is. -/
def Obligations.NonreflectedStepShiftsLeftAndTests : Prop :=
  ∀ P c : Word,
    (c.getLsbD 15 = true → nonreflStep P c = (c <<< 1) ^^^ P) ∧
    (c.getLsbD 15 = false → nonreflStep P c = c <<< 1) ∧
    ∀ j, j < 16 →
      (nonreflStep P c).getLsbD j = Bool.xor (decide (0 < j) && c.getLsbD (j - 1)) (c.getLsbD 15 && P.getLsbD j)

/-- R59, R60: the byte meets `c[15:8]`, then exactly eight steps, for any polynomial; `crc_xmodem_update` fixes 0x1021; the two worked
traces end where R60 says. -/
def Obligations.NonreflectedUpdateIsEightSteps : Prop :=
  (∀ (P c : Word) (d : Byte),
    nonreflUpdate P c d =
      nonreflStep P (nonreflStep P (nonreflStep P (nonreflStep P (nonreflStep P (nonreflStep P (nonreflStep P (nonreflStep P
        (c ^^^ (d.setWidth 16 <<< 8)))))))))) ∧
  (∀ (c : Word) (d : Byte), crcXmodemUpdate c d = nonreflUpdate 0x1021#16 c d) ∧
  crcXmodemUpdate 0x0000#16 0x31#8 = 0x2672#16 ∧ crcXmodemUpdate 0x1234#16 0x56#8 = 0x3C40#16

/-- R63: the table form equals the bit-serial definition on every input. -/
def Obligations.NonreflectedTableFormAgrees : Prop :=
  (∀ i : Byte, tXmodem i = crcXmodemUpdate 0x0000#16 i) ∧
  (∀ (c : Word) (d : Byte), crcXmodemUpdate c d = (c.extractLsb' 0 8 ++ 0x00#8) ^^^ tXmodem (c.extractLsb' 8 8 ^^^ d)) ∧
  (∀ (c : Word) (d : Byte), crcXmodemUpdateByTable c d = crcXmodemUpdate c d)

/-- R64: linear over exclusive-or, and the network of the sixteen constants. -/
def Obligations.NonreflectedUpdateIsLinear : Prop :=
  (∀ P a b : Word, nonreflStep P (a ^^^ b) = nonreflStep P a ^^^ nonreflStep P b) ∧
  (∀ (c c' : Word) (d d' : Byte),
    crcXmodemUpdate (c ^^^ c') (d ^^^ d') = crcXmodemUpdate c d ^^^ crcXmodemUpdate c' d') ∧
  crcXmodemUpdate 0x0000#16 0x00#8 = 0x0000#16 ∧
  (∀ i, i < 16 → wXmodem[i]? = some (crcXmodemUpdate (1#16 <<< i) 0x00#8)) ∧
  (∀ (c : Word) (d : Byte), crcXmodemUpdate c d = crcXmodemUpdateByNetwork c d)

/-- R65: for a fixed byte a bijection, and how one step is undone. -/
def Obligations.NonreflectedUpdateIsBijective : Prop :=
  (∀ d : Byte, Function.Bijective fun c : Word => crcXmodemUpdate c d) ∧
  (∀ c : Word, let r := nonreflStep 0x1021#16 c
    c = r.extractLsb' 0 1 ++ (r ^^^ (if r.getLsbD 0 then 0x1021#16 else 0#16)).extractLsb' 1 15)

/-- R66: the byte-folding identities, and a message followed by its checksum high byte first. -/
def Obligations.NonreflectedByteFolding : Prop :=
  (∀ (c : Word) (d : Byte), crcXmodemUpdate c d = crcXmodemUpdate (c ^^^ (d ++ 0x00#8)) 0x00#8) ∧
  (∀ c : Word, crcXmodemUpdate c (highByte c) = lowByte c ++ 0x00#8) ∧
  (∀ c : Word, crcXmodemUpdate (crcXmodemUpdate c (highByte c)) (lowByte c) = 0x0000#16) ∧
  (∀ (c : Word) (bs : List Byte),
    fold .xmodem c (bs ++ [highByte (fold .xmodem c bs), lowByte (fold .xmodem c bs)]) = 0x0000#16)

/-! ### Bit order and placement of the byte (20_memory.md) -/

/-- The bit the `j`-th reflected iteration (from 0) tests. -/
def Sys2Proof.Machine.reflTest (c : Word) (d : Byte) (j : Nat) : Bool := (iter (reflStep 0xA001#16) j (c ^^^ zext16 d)).getLsbD 0

/-- The bit the `j`-th non-reflected iteration (from 0) tests. -/
def Sys2Proof.Machine.nonreflTest (c : Word) (d : Byte) (j : Nat) : Bool :=
  (iter (nonreflStep 0x1021#16) j (c ^^^ byteHigh d)).getLsbD 15

/-- R26: the reflected variant consumes the byte least significant bit first, the other most significant bit first: changing bit `k`
(bit `7 - k`) of the byte changes test `k` and no test before it. -/
def Obligations.BitsOfAByteAreConsumedInOrder : Prop :=
  ∀ (c : Word) (d : Byte) (k : Nat), k < 8 →
    reflTest c (d ^^^ (1#8 <<< k)) k = !reflTest c d k ∧
    (∀ j, j < k → reflTest c (d ^^^ (1#8 <<< k)) j = reflTest c d j) ∧
    nonreflTest c (d ^^^ (1#8 <<< (7 - k))) k = !nonreflTest c d k ∧
    (∀ j, j < k → nonreflTest c (d ^^^ (1#8 <<< (7 - k))) j = nonreflTest c d j)

/-- R27: the byte is exclusive-ored into one half of ACC, bit for bit, and the other half passes unchanged into the eight steps. -/
def Obligations.ByteMeetsOneHalfOfAcc : Prop :=
  ∀ (P c : Word) (d : Byte),
    (∃ x : Word, reflUpdate P c d = iter (reflStep P) 8 x ∧ highByte x = highByte c ∧
      ∀ i, i < 8 → x.getLsbD i = Bool.xor (c.getLsbD i) (d.getLsbD i)) ∧
    (∃ x : Word, nonreflUpdate P c d = iter (nonreflStep P) 8 x ∧ lowByte x = lowByte c ∧
      ∀ i, i < 8 → x.getLsbD (i + 8) = Bool.xor (c.getLsbD (i + 8)) (d.getLsbD i))

/-! ### The six commands: encoding, effect, frame, corner cases -/

/-- R51. Only ACC changes; the update is that of R50; only `ACC[7:0] ^ imm8` and `ACC[15:8]` matter. -/
def Obligations.Crc16UpdateFoldsByte : Prop :=
  (∀ (d : Byte) (s : State),
    exec (.crc16Update d) s = .next { s with acc := reflUpdate 0xA001#16 s.acc d } ∧
    encode (.crc16Update d) = 0x20000#19 + d.setWidth 19) ∧
  crc16Update 0x0000#16 0x00#8 = 0x0000#16 ∧ crc16Update 0xFFFF#16 0xFF#8 = 0x00FF#16 ∧
  crc16Update 0x00FF#16 0xFF#8 = 0x0000#16 ∧ crc16Update 0xFF00#16 0xFF#8 = 0x40BF#16 ∧
  crc16Update 0xFFFF#16 0x00#8 = 0x40BF#16 ∧ crc16Update 0xFFFF#16 0x31#8 = 0x947E#16 ∧
  (∀ (c c' : Word) (d d' : Byte), c.extractLsb' 8 8 = c'.extractLsb' 8 8 → c.extractLsb' 0 8 ^^^ d = c'.extractLsb' 0 8 ^^^ d' →
    crc16Update c d = crc16Update c' d')

/-- R61. Only ACC changes; the update is that of R60; only `ACC[15:8] ^ imm8` and `ACC[7:0]` matter. -/
def Obligations.XmodemUpdateFoldsByte : Prop :=
  (∀ (d : Byte) (s : State),
    exec (.xmodemUpdate d) s = .next { s with acc := nonreflUpdate 0x1021#16 s.acc d } ∧
    encode (.xmodemUpdate d) = 0x30000#19 + d.setWidth 19) ∧
  crcXmodemUpdate 0x0000#16 0x00#8 = 0x0000#16 ∧ crcXmodemUpdate 0xFFFF#16 0xFF#8 = 0xFF00#16 ∧
  crcXmodemUpdate 0xFF00#16 0xFF#8 = 0x0000#16 ∧ crcXmodemUpdate 0x00FF#16 0xFF#8 = 0xE1F0#16 ∧
  crcXmodemUpdate 0xFFFF#16 0x00#8 = 0xE1F0#16 ∧ crcXmodemUpdate 0x0000#16 0x31#8 = 0x2672#16 ∧
  (∀ (c c' : Word) (d d' : Byte), c.extractLsb' 0 8 = c'.extractLsb' 0 8 → c.extractLsb' 8 8 ^^^ d = c'.extractLsb' 8 8 ^^^ d' →
    crcXmodemUpdate c d = crcXmodemUpdate c' d')

/-- R70. Only ACC changes; issued twice in a row the second has no further effect. -/
def Obligations.Crc16InitSetsAllOnes : Prop :=
  encode .crc16Init = 0x00000#19 ∧
  (∀ s : State, exec .crc16Init s = .next { s with acc := 0xFFFF#16 } ∧
    runCommands [.crc16Init, .crc16Init] s = exec .crc16Init s)

/-- R71. Only ACC changes; issued twice in a row the second has no further effect; the value is a fixed point of both updaters under 0x00. -/
def Obligations.XmodemInitSetsZero : Prop :=
  encode .xmodemInit = 0x10000#19 ∧
  (∀ s : State, exec .xmodemInit s = .next { s with acc := 0x0000#16 } ∧
    runCommands [.xmodemInit, .xmodemInit] s = exec .xmodemInit s) ∧
  crc16Update 0x0000#16 0x00#8 = 0x0000#16 ∧ crcXmodemUpdate 0x0000#16 0x00#8 = 0x0000#16

/-- R72. Only ACC changes, to any of the 65536 values, whatever it was; two values act as the INIT commands. -/
def Obligations.LoadSetsAnyValue : Prop :=
  (∀ (v : Word) (s : State), exec (.load v) s = .next { s with acc := v } ∧ encode (.load v) = 0x40000#19 + v.setWidth 19) ∧
  (∀ s : State, exec (.load 0xFFFF#16) s = exec .crc16Init s ∧ exec (.load 0x0000#16) s = exec .xmodemInit s)

/-- R73. One value, the current ACC, is appended to RSP; ACC and all else are unchanged; a second READ appends it again. -/
def Obligations.ReadReturnsAcc : Prop :=
  encode .read = 0x60000#19 ∧
  (∀ s : State, exec .read s = .next { s with rsp := s.rsp ++ [s.acc] } ∧
    runCommands [.read, .read] s = .next { s with rsp := s.rsp ++ [s.acc, s.acc] })

/-- R15: the table of who writes ACC and who reads it (a command that reads it does something else on another ACC); an idle period and
another instance do not write it. -/
def Obligations.WhoReadsAndWritesAcc : Prop :=
  (∀ s : State, ∃ t, exec .crc16Init s = .next t ∧ t.acc = 0xFFFF#16) ∧
  (∀ s : State, ∃ t, exec .xmodemInit s = .next t ∧ t.acc = 0x0000#16) ∧
  (∀ (d : Byte) (s : State), ∃ t, exec (.crc16Update d) s = .next t ∧ t.acc = crc16Update s.acc d) ∧
  (∀ (d : Byte) (s : State), ∃ t, exec (.xmodemUpdate d) s = .next t ∧ t.acc = crcXmodemUpdate s.acc d) ∧
  (∀ (v : Word) (s : State), ∃ t, exec (.load v) s = .next t ∧ t.acc = v) ∧
  (∀ s : State, ∃ t, exec .read s = .next t ∧ t.acc = s.acc) ∧
  (∀ (s : State) (a : Word),
    exec .crc16Init { s with acc := a } = exec .crc16Init s ∧
    exec .xmodemInit { s with acc := a } = exec .xmodemInit s ∧
    ∀ v, exec (.load v) { s with acc := a } = exec (.load v) s) ∧
  (∀ (s : State) (a : Word), a ≠ s.acc →
    (∀ d t, exec (.crc16Update d) s = .next t → ∃ u, exec (.crc16Update d) { s with acc := a } = .next u ∧ u.acc ≠ t.acc) ∧
    (∀ d t, exec (.xmodemUpdate d) s = .next t → ∃ u, exec (.xmodemUpdate d) { s with acc := a } = .next u ∧ u.acc ≠ t.acc) ∧
    (∀ t, exec .read s = .next t → ∃ u, exec .read { s with acc := a } = .next u ∧ u.rsp ≠ t.rsp)) ∧
  (∀ s : State, applyEvent .idle s = .next s) ∧
  (∀ (j k : Nat) (e : HostEvent) (sys sys' : Machine.System), j ≠ k → systemEvent k e sys = .next sys' → sys'[j]? = sys[j]?)

/-- R18: RSP is empty after reset; only READ appends to it; no command reads it. -/
def Obligations.OnlyReadAppendsAndNothingReadsRsp : Prop :=
  State.reset.rsp = [] ∧ (∀ s : State, s.takeReset.rsp = []) ∧
  ∀ (i : Instr) (s : State), ∃ (a : Word) (e : List Word),
    (if i = .read then e = [s.acc] else e = []) ∧
    ∀ r : List Word, exec i { s with rsp := r } = .next { s with acc := a, rsp := r ++ e }

/-- R17: two instances with equal ACC given the same command end with equal ACC and emit equal values, whatever else they hold. -/
def Obligations.EffectDependsOnAccAlone : Prop :=
  ∀ (i : Instr) (s t : State), s.acc = t.acc → ∃ (a : Word) (e : List Word),
    exec i s = .next { s with acc := a, rsp := s.rsp ++ e } ∧
    exec i t = .next { t with acc := a, rsp := t.rsp ++ e }

/-- R84: each of the six legal commands returns a next state in every state, and no step faults. -/
def Obligations.EveryCommandCompletes : Prop :=
  (∀ (i : Instr) (s : State), ∃ t, exec i s = .next t) ∧ (∀ (s : State) (r : Fault), step s ≠ .fault r)

/-! ### One step -/

/-- A presented legal word is decoded and executed, in the state in which the host has issued it. The queue of events is the model's own
(log entry 3). -/
def Obligations.StepRunsDecodedCommand : Prop :=
  ∀ (s : State) (w : CmdWord) (rest : List HostEvent) (i : Instr),
    s.pending = .command w :: rest → decode w = .ok i → step s = exec i { s with pending := rest }

/-- R42: a step is refused exactly when the host presents a reserved word, with the set it belongs to. -/
def Obligations.StepRefusesExactlyReservedWords : Prop :=
  (∀ (s : State) (w : CmdWord) (rest : List HostEvent), s.pending = .command w :: rest → CmdWord.legal w = false →
    ∃ why, decode w = .error why ∧ step s = .refused (.reservedWord why)) ∧
  (∀ (s : State) (r : Refusal), step s = .refused r →
    ∃ w rest why, s.pending = .command w :: rest ∧ CmdWord.legal w = false ∧ decode w = .error why ∧ r = .reservedWord why)

/-- R47: when the host presents no command the engine's state does not change. That a step of a host with no plans answers the same state
is the model's choice (log entry 4). -/
def Obligations.IdleChangesNothing : Prop :=
  (∀ s : State, s.pending = [] → step s = .next s) ∧
  (∀ (s : State) (rest : List HostEvent), s.pending = .idle :: rest → step s = .next { s with pending := rest })

/-- R94, R95: after RESET, ACC is a fresh draw (the free value, log entry 1) and RSP is empty; a command after it executes normally. -/
def Obligations.ResetDrawsAccAndEmptiesRsp : Prop :=
  ∀ (s : State) (rest : List HostEvent), s.pending = .reset :: rest →
    step s = .next { s with acc := Config.resetAcc s.unitTag s.draws, rsp := [], draws := s.draws + 1, pending := rest } ∧
    ∀ (w : CmdWord) (more : List HostEvent) (i : Instr), rest = .command w :: more → decode w = .ok i →
      runSteps 2 s = exec i { s with acc := Config.resetAcc s.unitTag s.draws, rsp := [], draws := s.draws + 1, pending := more }

/-- R23: the state after power-on; ACC is a draw of this instance that no later RESET takes again (the free value, log entries 1 and 2; the
numbers the model's own fields start from do not matter), RSP is empty, and the host has presented nothing (log entry 3). -/
def Obligations.PowerOnState : Prop :=
  (∃ n, State.reset.acc = Config.resetAcc State.reset.unitTag n ∧ n < State.reset.draws) ∧
  State.reset.rsp = [] ∧ State.reset.pending = []

/-- A table word that decodes is the next command to run, and nothing else is disturbed (log entries 3 and 8). -/
def Obligations.TableWordRunsNext : Prop :=
  ∀ (s : State) (nbits w : Nat) (i : Instr), decodeTableWord nbits w = some i → step (s.withFetchWord nbits w) = exec i s

/-- What one step can do, over all states: RSP grows by a READ only, ACC changes by an accepted command or RESET only, a draw is taken by
RESET only, and the instance's name never changes. -/
def Obligations.StepChangesByCommandOrResetOnly : Prop :=
  ∀ s t : State, step s = .next t →
    t.unitTag = s.unitTag ∧ t.pending = s.pending.tail ∧
    ((t.acc = s.acc ∧ t.rsp = s.rsp ∧ t.draws = s.draws ∧
        (s.pending = [] ∨ s.pending.head? = some .idle)) ∨
     (t.acc = s.acc ∧ t.rsp = s.rsp ++ [s.acc] ∧ t.draws = s.draws ∧ s.pending.head? = some (.command 0x60000#19)) ∨
     (t.rsp = s.rsp ∧ t.draws = s.draws ∧
        ∃ w i, s.pending.head? = some (.command w) ∧ decode w = .ok i ∧ i ≠ .read ∧
          exec i { s with pending := s.pending.tail } = .next t) ∨
     (t.acc = Config.resetAcc s.unitTag s.draws ∧ t.rsp = [] ∧ t.draws = s.draws + 1 ∧ s.pending.head? = some .reset))

/-! ### Runs -/

/-- R32: commands take effect one at a time, in the order issued: the steps of a presented list are the left-to-right run of its commands,
and the run of a list is the run of its parts. -/
def Obligations.StepsRunCommandsInIssueOrder : Prop :=
  (∀ (is : List Instr) (s : State), runSteps is.length (s.present (eventsOf is)) = runCommands is s) ∧
  (∀ (is js : List Instr) (s : State), runCommands (is ++ js) s = andThen (runCommands is s) (runCommands js))

/-- R104: a program of n commands ends after exactly n steps, with nothing of it left; no state of the engine is stuck. -/
def Obligations.CommandsEndAfterAsManySteps : Prop :=
  ∀ (is : List Instr) (s : State),
    ∃ t, runSteps is.length (s.present (eventsOf is)) = .next t ∧ t.pending = s.pending ∧
      ∀ n, n ≤ is.length → ∃ u, runSteps n (s.present (eventsOf is)) = .next u ∧
        u.pending = eventsOf (is.drop n) ++ s.pending

/-- R79: INIT, one UPDATE per byte and READ, from any start state, as steps of the machine: ACC and the value read are the checksum. -/
def Obligations.ChecksumCommandsReturnChecksum : Prop :=
  ∀ (V : Variant) (bs : List Byte) (s : State),
    runSteps (bs.length + 2) (s.present (eventsOf ([initOf V] ++ bs.map (updateCmd V) ++ [.read]))) =
      .next { s with acc := checksum V bs, rsp := s.rsp ++ [checksum V bs] }

/-- R80: the source's by-value call, from any start state, as steps of the machine. -/
def Obligations.CallCommandsReturnUpdate : Prop :=
  ∀ (V : Variant) (a : Word) (b : Byte) (s : State),
    runSteps 3 (s.present (eventsOf [.load a, updateCmd V b, .read])) =
      .next { s with acc := updateOf V a b, rsp := s.rsp ++ [updateOf V a b] }

/-- R75: the empty message. -/
def Obligations.EmptyMessageChecksum : Prop :=
  checksum .refl [] = 0xFFFF#16 ∧ checksum .xmodem [] = 0x0000#16 ∧
  ∀ s : State,
    runCommands [.crc16Init, .read] s = .next { s with acc := 0xFFFF#16, rsp := s.rsp ++ [0xFFFF#16] } ∧
    runCommands [.xmodemInit, .read] s = .next { s with acc := 0x0000#16, rsp := s.rsp ++ [0x0000#16] }

/-- R76: chunking, as a law of the fold and in the two ways the engine continues a second chunk: keep issuing UPDATE commands, or LOAD
the value a READ returned after any other commands in between. -/
def Obligations.ChunkedMessagesCompose : Prop :=
  (∀ (V : Variant) (c : Word) (S1 S2 : List Byte), fold V c (S1 ++ S2) = fold V (fold V c S1) S2) ∧
  (∀ (V : Variant) (S1 S2 : List Byte), checksum V (S1 ++ S2) = fold V (checksum V S1) S2) ∧
  (∀ (V : Variant) (c : Word) (S1 S2 : List Byte) (s : State),
    runCommands ([.load c] ++ updateCmds V S1 ++ updateCmds V S2) s = .next { s with acc := fold V c (S1 ++ S2) }) ∧
  (∀ (V : Variant) (c : Word) (S1 S2 : List Byte) (js : List Instr) (s : State),
    ∃ e, runCommands ([.load c] ++ updateCmds V S1 ++ [.read] ++ js ++ [.load (fold V c S1)] ++ updateCmds V S2) s =
      .next { s with acc := fold V c (S1 ++ S2), rsp := s.rsp ++ (fold V c S1 :: e) })

/-- R100: a stream saved by READ and restored by LOAD continues as if nothing had come between. -/
def Obligations.SavedStreamContinues : Prop :=
  ∀ (V : Variant) (bs : List Byte) (js : List Instr) (s : State), ∃ e,
    runCommands ([.read] ++ js ++ [.load s.acc] ++ updateCmds V bs) s =
      .next { s with acc := fold V s.acc bs, rsp := s.rsp ++ (s.acc :: e) }

/-- R81: UPDATE commands of both variants on one accumulator are computed by the ordinary rules, never refused and never a fault; the
rule's own example. -/
def Obligations.MixedVariantsAreComputed : Prop :=
  (∀ (l : List (Variant × Byte)) (s : State),
    runCommands (l.map fun p => updateCmd p.1 p.2) s =
      .next { s with acc := l.foldl (fun c p => updateOf p.1 c p.2) s.acc }) ∧
  ∀ s : State, runCommands [.crc16Init, .crc16Update 0x31#8, .xmodemUpdate 0x32#8, .read] s =
    .next { s with acc := 0xAB2C#16, rsp := s.rsp ++ [0xAB2C#16] }

/-- R31: READ leaves ACC unchanged and may be repeated, each repetition appending the same value again. -/
def Obligations.RepeatedReadsAppendTheSameValue : Prop :=
  ∀ (n : Nat) (s : State),
    runSteps n (s.present (eventsOf (List.replicate n .read))) = .next { s with rsp := s.rsp ++ List.replicate n s.acc }

/-- A host that begins every message with its variant's INIT and ends it with READ (R96 to R99) receives the checksums of the messages in
order, from any start state. -/
def Obligations.EachMessageReturnsItsChecksum : Prop :=
  ∀ (msgs : List (Variant × List Byte)) (s : State), ∃ t,
    runCommands (msgs.flatMap fun m => checksumCmds m.1 m.2) s = .next t ∧
    t.rsp = s.rsp ++ msgs.map (fun m => checksum m.1 m.2) ∧ t.pending = s.pending

/-- R96: under the boot requirement nothing depends on what ACC held before, whatever variants the list mixes (R81): the responses are the
same, and the whole state is as soon as one command has run. The lists that keep R96 and R99 together, as Safety.lean writes them (log entry
13), are among them. -/
def Obligations.InitialisedRunsForgetAcc : Prop :=
  (∀ (is : List Instr) (s : State) (a : Word), keepsBoot is = true →
    ∃ t u, runCommands is s = .next t ∧ runCommands is { s with acc := a } = .next u ∧ t.rsp = u.rsp ∧
      (is ≠ [] → t = u)) ∧
  (∀ is : List Instr, keepsContracts .unbegun is = true → keepsBoot is = true)

/-- Every step keeps R102, the host presenting no reserved word, and is then never refused. -/
def Obligations.LegalPlansStayLegal : Prop :=
  ∀ s : State, HostContract s → ∃ t, step s = .next t ∧ HostContract t

/-- R102 holds of the state after power-on, where the host has presented nothing (log entry 3). -/
def Obligations.PowerOnPlansAreLegal : Prop := HostContract State.reset

/-- R102, R104: under it no run of any length stops. -/
def Obligations.LegalPlansNeverStop : Prop := ∀ s : State, HostContract s → ∀ n, SafeRun n s

/-! ### Several instances, the port, the assembler -/

/-- R20: any interleaving of the events of different instances gives each instance the state its own events alone give. That it completes
exactly when each of those runs does is the model's choice (log entry 10: an event to an absent instance changes nothing, and a refusal in
one instance ends the run of the system). -/
def Obligations.InstancesShareNothing : Prop :=
  ∀ (es : List (Nat × HostEvent)) (sys : Machine.System),
    (∀ sys', systemRun es sys = .next sys' →
      sys'.length = sys.length ∧
      ∀ k s, sys[k]? = some s → ∃ t, engineRun (eventsFor k es) s = .next t ∧ sys'[k]? = some t) ∧
    ((∀ k s, sys[k]? = some s → ∃ t, engineRun (eventsFor k es) s = .next t) → ∃ sys', systemRun es sys = .next sys')

/-- R94, R46: one cycle. Reset beats a command in the same cycle, which is lost (a reserved word too); an accepted command executes; a
cycle with neither changes nothing; `cmd_ready` is constant 1; a response is valid in exactly the cycles that accept a READ. -/
def Obligations.PortCycleObeysReset : Prop :=
  (∀ (valid : Bool) (w : CmdWord) (s : State), ∃ o,
    portCycle ⟨true, valid, w⟩ s = .next (s.takeReset, o) ∧ o.cmdReady = true ∧ rspValid o = false) ∧
  (∀ (w : CmdWord) (i : Instr) (s : State), decode w = .ok i → ∃ t o,
    exec i s = .next t ∧ portCycle ⟨false, true, w⟩ s = .next (t, o) ∧ o.cmdReady = true ∧
    (rspValid o = true ↔ i = .read) ∧ (i = .read → o.rspData = some s.acc)) ∧
  (∀ (w : CmdWord) (s : State), ∃ o,
    portCycle ⟨false, false, w⟩ s = .next (s, o) ∧ o.cmdReady = true ∧ rspValid o = false)

/-- The port refines the command level: a run of cycles ends in the state its events give as steps, and without a reset in it the responses
seen at the port are what RSP gains (R46, R18; log entry 9). -/
def Obligations.PortRunRefinesSteps : Prop :=
  ∀ (cycles : List PortIn) (s : State),
    runSteps cycles.length (s.present (cycles.map portEvent)) = andThen (portRun cycles s) (fun p => .next p.1) ∧
    ∀ t outs, portRun cycles s = .next (t, outs) →
      outs.length = cycles.length ∧ (∀ o ∈ outs, o.cmdReady = true) ∧
      ((∀ i ∈ cycles, i.rst = false) → t.rsp = s.rsp ++ outs.filterMap (·.rspData))

/-- R45: what each pseudo-instruction expands to. -/
def Obligations.PseudoInstructionsExpand : Prop :=
  (∀ (v : Word) (d : Byte),
    assemble (.crc16Call v.toNat d.toNat) = .ok [.load v, .crc16Update d, .read] ∧
    assemble (.xmodemCall v.toNat d.toNat) = .ok [.load v, .xmodemUpdate d, .read] ∧
    assemble (.resume v.toNat) = .ok [.load v]) ∧
  (∀ bs : List Byte,
    assemble (.crc16Bytes (bs.map BitVec.toNat)) = .ok (bs.map .crc16Update) ∧
    assemble (.xmodemBytes (bs.map BitVec.toNat)) = .ok (bs.map .xmodemUpdate) ∧
    assemble (.crc16Checksum (bs.map BitVec.toNat)) = .ok ([.crc16Init] ++ bs.map .crc16Update ++ [.read]) ∧
    assemble (.xmodemChecksum (bs.map BitVec.toNat)) = .ok ([.xmodemInit] ++ bs.map .xmodemUpdate ++ [.read])) ∧
  (∀ cs : List Char, (∀ c ∈ cs, c.toNat < 128 ∧ c ≠ '"') → readByteList ('"' :: (cs ++ ['"'])) = some (cs.map Char.toNat))

/-- R44: the text of a command assembles to the command, with or without a comment after it, and an operand out of range is an error. -/
def Obligations.CommandTextAssembles : Prop :=
  (∀ (i : Instr) (comment : List Char),
    assembleLine (commandText i) = .ok [i] ∧ assembleLine (commandText i ++ ' ' :: ';' :: comment) = .ok [i]) ∧
  (∀ n : Nat, 0xFF < n → assemble (.crc16Update n) = .error .outOfRange ∧ assemble (.xmodemUpdate n) = .error .outOfRange) ∧
  (∀ n : Nat, 0xFFFF < n → assemble (.load n) = .error .outOfRange)
end

