-- ==== Sys2Proof/Laws/Decode.lean ====
section
/-! SUPPORT. The fields of a word built from fields (30_encoding.md R34), and what a table word is. -/

namespace Sys2Proof

section
variable (cls : BitVec 2) (var : BitVec 1) (arg : BitVec 16)

@[simp] theorem ofFields_cls : (CmdWord.ofFields cls var arg).cls = cls := by
  ext i hi
  simp only [CmdWord.cls, CmdWord.ofFields, BitVec.getElem_extractLsb', BitVec.getLsbD_append]
  simp only [show ¬ 17 + i < 16 by omega, show ¬ 17 + i - 16 < 1 by omega, if_false]
  rw [show 17 + i - 16 - 1 = i by omega, BitVec.getLsbD_eq_getElem hi]

@[simp] theorem ofFields_var : (CmdWord.ofFields cls var arg).var = var := by
  ext i hi
  simp only [CmdWord.var, CmdWord.ofFields, BitVec.getElem_extractLsb', BitVec.getLsbD_append]
  simp only [show ¬ 16 + i < 16 by omega, show 16 + i - 16 < 1 by omega, if_false, if_true]
  rw [show 16 + i - 16 = i by omega, BitVec.getLsbD_eq_getElem hi]

@[simp] theorem ofFields_arg : (CmdWord.ofFields cls var arg).arg = arg := by
  ext i hi
  simp only [CmdWord.arg, CmdWord.ofFields, BitVec.getElem_extractLsb', BitVec.getLsbD_append]
  simp only [show 0 + i < 16 by omega, if_true]
  rw [show 0 + i = i by omega, BitVec.getLsbD_eq_getElem hi]

end

/-- The halves of a zero-extended byte operand (R37). -/
@[simp] theorem ofFields_argHigh (cls : BitVec 2) (var : BitVec 1) (h l : BitVec 8) :
    (CmdWord.ofFields cls var (h ++ l)).argHigh = h := by
  rw [CmdWord.argHigh, ofFields_arg]
  ext i hi
  simp only [BitVec.getElem_extractLsb', BitVec.getLsbD_append, show ¬ 8 + i < 8 by omega, if_false]
  rw [show 8 + i - 8 = i by omega, BitVec.getLsbD_eq_getElem hi]

@[simp] theorem ofFields_argLow (cls : BitVec 2) (var : BitVec 1) (h l : BitVec 8) :
    (CmdWord.ofFields cls var (h ++ l)).argLow = l := by
  rw [CmdWord.argLow, ofFields_arg]
  ext i hi
  simp only [BitVec.getElem_extractLsb', BitVec.getLsbD_append, show 0 + i < 8 by omega, if_true]
  rw [show 0 + i = i by omega, BitVec.getLsbD_eq_getElem hi]

/-- A word is its three fields (R34). -/
theorem ofFields_of_fields (w : CmdWord) : CmdWord.ofFields w.cls w.var w.arg = w := by
  ext i hi
  rw [← BitVec.getLsbD_eq_getElem hi, ← BitVec.getLsbD_eq_getElem hi]
  simp only [CmdWord.ofFields, BitVec.getLsbD_append, CmdWord.cls, CmdWord.var, CmdWord.arg, BitVec.getLsbD_extractLsb']
  split
  · simp [*]
  · split
    · rw [show 16 + (i - 16) = i by omega]
      simp [*]
    · rw [show 17 + (i - 16 - 1) = i by omega]
      simp [show i - 16 - 1 < 2 by omega]

/-- The decoder reads a command from a table word exactly when the number is a 19-bit word that decodes to it. -/
theorem decodeTableWord_eq_some {nbits w : Nat} {i : Instr} :
    decodeTableWord nbits w = some i ↔ ∃ v, tableWord nbits w = some v ∧ decode v = .ok i := by
  unfold decodeTableWord
  cases tableWord nbits w with
  | none => simp
  | some v =>
    cases h : decode v with
    | ok j => simp [h]
    | error e => simp [h]

end Sys2Proof
end

