-- ==== Sys2Proof/Laws/State.lean ====
section
/-! SUPPORT. What each update of the state does to each field. -/

namespace Sys2Proof.Machine

section
variable (s : State) (v : Word) (es : List HostEvent)

@[simp] theorem State.setAcc_acc : (s.setAcc v).acc = v := rfl
@[simp] theorem State.setAcc_rsp : (s.setAcc v).rsp = s.rsp := rfl
@[simp] theorem State.setAcc_pending : (s.setAcc v).pending = s.pending := rfl
@[simp] theorem State.setAcc_unitTag : (s.setAcc v).unitTag = s.unitTag := rfl
@[simp] theorem State.setAcc_draws : (s.setAcc v).draws = s.draws := rfl

@[simp] theorem State.emit_acc : (s.emit v).acc = s.acc := rfl
@[simp] theorem State.emit_rsp : (s.emit v).rsp = s.rsp ++ [v] := rfl
@[simp] theorem State.emit_pending : (s.emit v).pending = s.pending := rfl
@[simp] theorem State.emit_unitTag : (s.emit v).unitTag = s.unitTag := rfl
@[simp] theorem State.emit_draws : (s.emit v).draws = s.draws := rfl

@[simp] theorem State.takeReset_acc : s.takeReset.acc = Config.resetAcc s.unitTag s.draws := rfl
@[simp] theorem State.takeReset_rsp : s.takeReset.rsp = [] := rfl
@[simp] theorem State.takeReset_pending : s.takeReset.pending = s.pending := rfl
@[simp] theorem State.takeReset_unitTag : s.takeReset.unitTag = s.unitTag := rfl
@[simp] theorem State.takeReset_draws : s.takeReset.draws = s.draws + 1 := rfl

@[simp] theorem State.present_acc : (s.present es).acc = s.acc := rfl
@[simp] theorem State.present_rsp : (s.present es).rsp = s.rsp := rfl
@[simp] theorem State.present_pending : (s.present es).pending = es ++ s.pending := rfl
@[simp] theorem State.present_unitTag : (s.present es).unitTag = s.unitTag := rfl
@[simp] theorem State.present_draws : (s.present es).draws = s.draws := rfl

/-- Presenting nothing changes nothing. -/
@[simp] theorem State.present_nil : s.present [] = s := rfl

/-- A later write of ACC hides an earlier one. -/
@[simp] theorem State.setAcc_setAcc (w : Word) : (s.setAcc v).setAcc w = s.setAcc w := rfl

/-- A write of ACC and the host's plans do not touch each other. -/
theorem State.present_setAcc : (s.present es).setAcc v = (s.setAcc v).present es := rfl

/-- An emitted value and the host's plans do not touch each other. -/
theorem State.present_emit : (s.present es).emit v = (s.emit v).present es := rfl

end

end Sys2Proof.Machine
end

