-- ==== Sys2Proof/Laws/Ops.lean ====
section
/-! SUPPORT. What the shared operations can do: continuing after an outcome, taking the host's next event, iterating, and placing bytes. -/

namespace Sys2Proof.Machine

section
variable {σ τ υ : Type}

@[simp] theorem andThen_next (s : σ) (f : σ → Host.Outcome τ Fault Refusal) : andThen (.next s) f = f s := rfl
@[simp] theorem andThen_fault (r : Fault) (f : σ → Host.Outcome τ Fault Refusal) : andThen (.fault r) f = .fault r := rfl
@[simp] theorem andThen_refused (r : Refusal) (f : σ → Host.Outcome τ Fault Refusal) :
    andThen (.refused r) f = .refused r := rfl

/-- A continued outcome is a next state exactly when both parts are. -/
theorem andThen_eq_next {o : Host.Outcome σ Fault Refusal} {f : σ → Host.Outcome τ Fault Refusal} {t : τ} :
    andThen o f = .next t ↔ ∃ s, o = .next s ∧ f s = .next t := by
  cases o with
  | next s => simp
  | fault r => exact nomatch r
  | refused r => simp

/-- Continuing twice is continuing with the continued function. -/
theorem andThen_assoc (o : Host.Outcome σ Fault Refusal) (f : σ → Host.Outcome τ Fault Refusal)
    (g : τ → Host.Outcome υ Fault Refusal) : andThen (andThen o f) g = andThen o fun s => andThen (f s) g := by
  cases o <;> rfl

end

/-- No outcome of any operation is a fault: there is none (R84). -/
theorem outcome_ne_fault {σ : Type} (o : Host.Outcome σ Fault Refusal) (r : Fault) : o ≠ .fault r := nomatch r

theorem nextEvent_none {s : State} (h : s.pending = []) : s.nextEvent = none := by
  simp [State.nextEvent, h]

theorem nextEvent_some {s : State} {e : HostEvent} {rest : List HostEvent} (h : s.pending = e :: rest) :
    s.nextEvent = some (e, { s with pending := rest }) := by
  simp [State.nextEvent, h]

section
variable {α : Type} (f : α → α)

@[simp] theorem iter_zero (x : α) : iter f 0 x = x := rfl
@[simp] theorem iter_succ (n : Nat) (x : α) : iter f (n + 1) x = f (iter f n x) := rfl

/-- The first of the iterations taken apart instead of the last. -/
theorem iter_succ' (n : Nat) (x : α) : iter f (n + 1) x = iter f n (f x) := by
  induction n with
  | zero => rfl
  | succ n ih => rw [iter_succ, ih, iter_succ]

/-- Iterations add up. -/
theorem iter_add (m n : Nat) (x : α) : iter f (m + n) x = iter f m (iter f n x) := by
  induction m with
  | zero => simp
  | succ m ih => rw [Nat.succ_add, iter_succ, ih, iter_succ]

end

/-- The bits of `{0x00, d}` (R11). -/
theorem zext16_bit (d : Byte) (i : Nat) : (zext16 d).getLsbD i = d.getLsbD i := by
  simp only [zext16, BitVec.getLsbD_append]
  split
  · rfl
  · rename_i h
    simp [BitVec.getLsbD_of_ge d i (by omega)]

/-- The bits of `{d, 0x00}` (R11). -/
theorem byteHigh_bit (d : Byte) (i : Nat) : (byteHigh d).getLsbD i = (decide (8 ≤ i) && d.getLsbD (i - 8)) := by
  simp only [byteHigh, BitVec.getLsbD_append]
  split
  · rename_i h
    simp [show ¬ 8 ≤ i by omega]
  · rename_i h
    simp [show 8 ≤ i by omega]

theorem lowByte_bit (c : Word) (i : Nat) : (lowByte c).getLsbD i = (decide (i < 8) && c.getLsbD i) := by
  simp [lowByte]

theorem highByte_bit (c : Word) (i : Nat) : (highByte c).getLsbD i = (decide (i < 8) && c.getLsbD (8 + i)) := by
  simp [highByte]

end Sys2Proof.Machine
end

