-- ==== Sys2Proof/Laws/Exec.lean ====
section
/-! SUPPORT. What issuing a word can do, and that the host's plans and the record of responses do not influence a command. -/

namespace Sys2Proof.Machine

theorem issueWord_ok {w : CmdWord} {i : Instr} (h : decode w = .ok i) (s : State) : issueWord w s = exec i s := by
  simp [issueWord, h]

theorem issueWord_error {w : CmdWord} {why : Reserved} (h : decode w = .error why) (s : State) :
    issueWord w s = .refused (.reservedWord why) := by
  simp [issueWord, h]

/-- Everything issuing a word can do: run the command it decodes to, or refuse it (R42). -/
theorem issueWord_cases (w : CmdWord) (s : State) :
    (∃ i, decode w = .ok i ∧ issueWord w s = exec i s) ∨
    (∃ why, decode w = .error why ∧ issueWord w s = .refused (.reservedWord why)) := by
  cases h : decode w with
  | ok i => exact .inl ⟨i, rfl, issueWord_ok h s⟩
  | error why => exact .inr ⟨why, rfl, issueWord_error h s⟩

/-- A command neither reads nor writes the host's plans. -/
theorem exec_present (i : Instr) (s : State) (es : List HostEvent) :
    exec i (s.present es) = andThen (exec i s) fun s' => .next (s'.present es) := by
  cases i <;> rfl

theorem step_of_empty {s : State} (h : s.pending = []) : step s = .next s := by
  simp [step, nextEvent_none h]

theorem step_of_event {s : State} {e : HostEvent} {rest : List HostEvent} (h : s.pending = e :: rest) :
    step s = applyEvent e { s with pending := rest } := by
  simp [step, nextEvent_some h]

end Sys2Proof.Machine
end

