-- ==== Sys2Proof/Laws/PerInstr.lean ====
section
/-! SUPPORT. Per-command facts about the encoding: the word of a command matches a row of the command map (30_encoding.md R38). -/

namespace Sys2Proof.Laws.EncodesToRow

/-- The command's word is matched by some row of the command map. -/
def Statement (i : Instr) : Prop := CmdWord.legal (encode i) = true

/-- The mask of an UPDATE row takes the byte away. -/
theorem update_masked (cls : BitVec 2) (var : BitVec 1) (d : Byte) :
    CmdWord.ofFields cls var (0x00#8 ++ d) &&& 0x7FF00#19 = CmdWord.ofFields cls var 0x0000#16 := by
  revert cls var d
  decide

/-- The mask of the LOAD row takes the value away. -/
theorem load_masked (cls : BitVec 2) (v : BitVec 16) :
    CmdWord.ofFields cls 0#1 v &&& 0x70000#19 = CmdWord.ofFields cls 0#1 0x0000#16 := by
  have hm : (0x70000#19 : CmdWord) = CmdWord.ofFields 0b11#2 1#1 0x0000#16 := by decide
  rw [hm]
  simp only [CmdWord.ofFields]
  ext i hi
  simp only [BitVec.getElem_and]
  rw [BitVec.getElem_append, BitVec.getElem_append, BitVec.getElem_append]
  split
  · simp
  · rw [BitVec.getElem_append, BitVec.getElem_append]
    split
    · simp
    · have : i - 16 - 1 = 0 ∨ i - 16 - 1 = 1 := by omega
      rcases this with h | h <;> simp [h]

theorem crc16Init : Statement .crc16Init := by unfold Statement; decide
theorem xmodemInit : Statement .xmodemInit := by unfold Statement; decide
theorem crc16Update (imm8 : Byte) : Statement (.crc16Update imm8) := by
  unfold Statement encode CmdWord.legal commandMap CommandRow.covers
  simp only [List.any_cons, update_masked]
  simp only [show CmdWord.ofFields 0b01#2 0#1 0x0000#16 = 0x20000#19 from by decide, beq_self_eq_true, Bool.true_or, Bool.or_true]
theorem xmodemUpdate (imm8 : Byte) : Statement (.xmodemUpdate imm8) := by
  unfold Statement encode CmdWord.legal commandMap CommandRow.covers
  simp only [List.any_cons, update_masked]
  simp only [show CmdWord.ofFields 0b01#2 1#1 0x0000#16 = 0x30000#19 from by decide, beq_self_eq_true, Bool.true_or, Bool.or_true]
theorem load (imm16 : Word) : Statement (.load imm16) := by
  unfold Statement encode CmdWord.legal commandMap CommandRow.covers
  simp only [List.any_cons, load_masked]
  simp only [show CmdWord.ofFields 0b10#2 0#1 0x0000#16 = 0x40000#19 from by decide, beq_self_eq_true, Bool.true_or, Bool.or_true]
theorem read : Statement .read := by unfold Statement; decide

end Sys2Proof.Laws.EncodesToRow
end

