-- ==== Sys2Proof/Tests/Slice0.lean ====
section
/-! SUPPORT. Tests, each on values that 95_test_vectors.md or a rule of spec/ gives, and for every statement with hypotheses a named
theorem showing concrete values that meet them. -/

namespace Sys2Proof.Tests

open Sys2Proof Sys2Proof.Machine

/-- A state with the given ACC, RSP and plans of the host. -/
def st (acc : Word) (rsp : List Word) (pending : List HostEvent) : State :=
  { acc := acc, rsp := rsp, pending := pending, unitTag := 0, draws := 1 }

/-- ACC and RSP of a next state. -/
def seen (o : Host.Outcome State Fault Refusal) : Option (Word × List Word) :=
  match o with
  | .next s => some (s.acc, s.rsp)
  | .fault _ => none
  | .refused _ => none

/-- Why an outcome is refused. -/
def refusal (o : Host.Outcome State Fault Refusal) : Option Refusal :=
  match o with
  | .next _ => none
  | .fault _ => none
  | .refused r => some r

/-- The reason a word is rejected, if it is. -/
def rejected (w : CmdWord) : Option Reserved :=
  match decode w with
  | .ok _ => none
  | .error r => some r

/-! ### Decoding: words written out bit by bit from R38's patterns, and their nearest reserved words (95_test_vectors.md 2.5) -/

theorem test_decode_crc16Init : decode 0b0000000000000000000#19 = .ok .crc16Init := by decide
theorem test_decode_xmodemInit : decode 0b0010000000000000000#19 = .ok .xmodemInit := by decide
theorem test_decode_crc16Update : decode 0b0100000000000110001#19 = .ok (.crc16Update 0x31#8) := by decide
theorem test_decode_xmodemUpdate : decode 0b0110000000000110001#19 = .ok (.xmodemUpdate 0x31#8) := by decide
theorem test_decode_load : decode 0b1000011000010111010#19 = .ok (.load 0x30BA#16) := by decide
theorem test_decode_read : decode 0b1100000000000000000#19 = .ok .read := by decide
theorem test_reserved_init_operand :
    rejected 0x00001#19 = some .initOperand ∧ rejected 0x1FFFF#19 = some .initOperand := by decide
theorem test_reserved_update_high_byte :
    rejected 0x20100#19 = some .updateHighByte ∧ rejected 0x3FFFF#19 = some .updateHighByte := by decide
theorem test_reserved_load_variant :
    rejected 0x50000#19 = some .loadVariant ∧ rejected 0x5FFFF#19 = some .loadVariant := by decide
theorem test_reserved_read_operand :
    rejected 0x60001#19 = some .readOperand ∧ rejected 0x6FFFF#19 = some .readOperand := by decide
theorem test_reserved_read_variant :
    rejected 0x70000#19 = some .readVariant ∧ rejected 0x7FFFF#19 = some .readVariant := by decide
theorem test_encode_words :
    encode (.crc16Update 0xFF#8) = 0x200FF#19 ∧ encode (.xmodemUpdate 0xC3#8) = 0x300C3#19 ∧
    encode (.load 0xABCD#16) = 0x4ABCD#19 := by decide
theorem test_table_word : decodeTableWord 24 0x430BA = some (.load 0x30BA#16) ∧ decodeTableWord 24 0x80000 = none := by decide

/-! ### WellFormed: one ill-formed term for each check -/

theorem test_wf_word_legal : CmdWord.legal 0x200FF#19 = true := by decide
theorem test_wf_word_reserved : CmdWord.legal 0x20100#19 = false := by decide
theorem test_wf_crc16Update : (SourceCommand.crc16Update 0x100).wellFormed = false := by decide
theorem test_wf_xmodemUpdate : (SourceCommand.xmodemUpdate 0x100).wellFormed = false := by decide
theorem test_wf_load : (SourceCommand.load 0x10000).wellFormed = false := by decide
theorem test_wf_calls :
    (SourceCommand.crc16Call 0x10000 0).wellFormed = false ∧ (SourceCommand.crc16Call 0 0x100).wellFormed = false ∧
    (SourceCommand.xmodemCall 0x10000 0).wellFormed = false ∧ (SourceCommand.xmodemCall 0 0x100).wellFormed = false := by
  decide
theorem test_wf_bytes :
    (SourceCommand.crc16Bytes [0, 0x100]).wellFormed = false ∧ (SourceCommand.xmodemBytes [0x100]).wellFormed = false ∧
    (SourceCommand.crc16Checksum [0x100]).wellFormed = false ∧ (SourceCommand.xmodemChecksum [1, 0x100]).wellFormed = false := by
  decide
theorem test_wf_resume : (SourceCommand.resume 0x10000).wellFormed = false := by decide

/-! ### The updaters (95_test_vectors.md 2.1 and 2.2) -/

/-- The shift is logical: 0x4000, not 0xC000. -/
theorem test_refl_step_logical : reflStep 0xA001#16 0x8000#16 = 0x4000#16 ∧ reflStep 0xA001#16 0x8001#16 = 0xE001#16 := by decide
/-- The shifted-out bit is dropped: 0x1021, not 0x11021. -/
theorem test_nonrefl_step_truncates :
    nonreflStep 0x1021#16 0x8000#16 = 0x1021#16 ∧ nonreflStep 0x1021#16 0x7FFF#16 = 0xFFFE#16 := by decide

/-! ### One step of each command (95_test_vectors.md 2.2, 2.4, P1, P2) -/

theorem test_step_crc16Init : seen (step (st 0x1234#16 [] [.command 0x00000#19])) = some (0xFFFF#16, []) := by decide
theorem test_step_xmodemInit : seen (step (st 0x1234#16 [] [.command 0x10000#19])) = some (0x0000#16, []) := by decide
/-- The source's anchor vector with the value the recurrence gives (90_conflicts.md C1). -/
theorem test_step_crc16Update_anchor :
    seen (step (st 0xFFFF#16 [] [.command 0x20000#19])) = some (0x40BF#16, []) := by decide
/-- A byte of 0x80 is unsigned. -/
theorem test_step_crc16Update_high_bit :
    seen (step (st 0x0000#16 [] [.command 0x20080#19])) = some (0xA001#16, []) := by decide
/-- The last byte of the source's end-to-end scenario: 0x31C3. -/
theorem test_step_xmodemUpdate_check_value :
    seen (step (st 0x9015#16 [] [.command 0x30039#19])) = some (0x31C3#16, []) := by decide
theorem test_step_xmodemUpdate_high_bit :
    seen (step (st 0x0000#16 [] [.command 0x30080#19])) = some (0x9188#16, []) := by decide
theorem test_step_load : seen (step (st 0x0000#16 [0x30BA#16] [.command 0x430BA#19])) = some (0x30BA#16, [0x30BA#16]) := by decide
theorem test_step_read :
    seen (step (st 0x31C3#16 [0x31C3#16] [.command 0x60000#19])) = some (0x31C3#16, [0x31C3#16, 0x31C3#16]) := by decide
/-- P8: a reserved word is refused. -/
theorem test_step_reserved :
    refusal (step (st 0xFFFF#16 [] [.command 0x20100#19])) = some (.reservedWord .updateHighByte) := by decide
/-- R95: RESET empties RSP and draws ACC. -/
theorem test_step_reset :
    step (st 0x1234#16 [0x31C3#16] [.reset]) =
      .next { acc := Config.resetAcc 0 1, rsp := [], pending := [], unitTag := 0, draws := 2 } := rfl
/-- R47: no command, no change. -/
theorem test_step_idle : seen (step (st 0x1234#16 [] [])) = some (0x1234#16, []) := by decide
/-- A command runs as the first after power-on, whatever ACC is. -/
theorem test_first_read_after_reset :
    step (State.reset.withFetchWord 24 0x60000) = .next (State.reset.emit State.reset.acc) := rfl
theorem test_first_init_after_reset : seen (step (State.reset.withFetchWord 24 0x00000)) = some (0xFFFF#16, []) := by decide

/-! ### The fold (95_test_vectors.md 2.3), the port (R46, R94), two instances (R20) -/

theorem test_checksum_one_byte : checksum .refl [0x41#8] = 0x707F#16 ∧ checksum .xmodem [0x41#8] = 0x58E5#16 := by decide
theorem test_fold_resumes : fold .refl 0x37DD#16 [0x39#8] = 0x4B37#16 ∧ fold .xmodem 0x9015#16 [0x39#8] = 0x31C3#16 := by decide
theorem test_port_read_valid : portOut ⟨false, true, 0x60000#19⟩ (st 0x31C3#16 [] []) = ⟨true, some 0x31C3#16⟩ := by decide
theorem test_port_reset_wins : portEvent ⟨true, true, 0x00000#19⟩ = .reset := by decide
theorem test_instances_apart :
    (match systemEvent 1 (.command 0x00000#19) [st 0x1234#16 [] [], st 0x5678#16 [] []] with
      | .next sys => sys.map (·.acc)
      | .fault _ => []
      | .refused _ => []) = [0x1234#16, 0xFFFF#16] := by decide

/-! ### Assembler text (R44, R45) -/

/-- `CRC16_UPDATE '1' ; a comment` with R44's own example that `'1'` is 0x31. -/
theorem test_asm_char :
    assembleLine (textCrc16Update ++ [' ', '\'', '1', '\'', ' ', ';', ' ', 'x']) = .ok [.crc16Update 0x31#8] := by decide
theorem test_asm_call :
    assembleLine (textXmodemCall ++ [' ', '0', 'x', '1', '2', '3', '4', ',', ' ', '0', 'x', '5', '6']) =
      .ok [.load 0x1234#16, .xmodemUpdate 0x56#8, .read] := by decide
theorem test_asm_string :
    assembleLine (textXmodemBytes ++ [' ', '"', '1', '2', '"']) = .ok [.xmodemUpdate 0x31#8, .xmodemUpdate 0x32#8] := by decide
theorem test_asm_empty_checksum : assembleLine textCrc16Checksum = .ok [.crc16Init, .read] := by decide
theorem test_asm_errors :
    assembleLine (textLoad ++ [' ', '0', 'x', '1', '2']) = .error .operands ∧ assembleLine ['N', 'O', 'P'] = .error .mnemonic := by
  decide

/-! ### Witnesses: values that meet the hypotheses of each statement that has some -/

theorem witness_ReflectedStepShiftsRightAndTests :
    (0x8001#16).getLsbD 0 = true ∧ (0x8000#16).getLsbD 0 = false ∧ 0 < 16 ∧ 15 < 16 := by decide
theorem witness_NonreflectedStepShiftsLeftAndTests :
    (0x8001#16).getLsbD 15 = true ∧ (0x7FFF#16).getLsbD 15 = false ∧ 0 < 16 ∧ 15 < 16 := by decide
theorem witness_ReflectedUpdateIsLinear : 0 < 16 ∧ 15 < 16 := by decide
theorem witness_NonreflectedUpdateIsLinear : 0 < 16 ∧ 15 < 16 := by decide
theorem witness_BitsOfAByteAreConsumedInOrder : 0 < 8 ∧ 7 < 8 ∧ 0 < 7 ∧ 6 < 7 := by decide
theorem witness_ByteMeetsOneHalfOfAcc : 0 < 8 ∧ 7 < 8 := by decide
theorem witness_DecodeFollowsCommandMap : (⟨"LOAD", 0x40000#19, 0x70000#19⟩ : CommandRow) ∈ commandMap := by decide
theorem witness_EncodeAndDecodeAreInverse : decode 0x4FFFF#19 = .ok (.load 0xFFFF#16) := by decide
theorem witness_Crc16UpdateFoldsByte :
    (0xFF00#16).extractLsb' 8 8 = (0xFFFF#16).extractLsb' 8 8 ∧
    (0xFF00#16).extractLsb' 0 8 ^^^ 0xFF#8 = (0xFFFF#16).extractLsb' 0 8 ^^^ 0x00#8 := by decide
theorem witness_XmodemUpdateFoldsByte :
    (0x00FF#16).extractLsb' 0 8 = (0xFFFF#16).extractLsb' 0 8 ∧
    (0x00FF#16).extractLsb' 8 8 ^^^ 0xFF#8 = (0xFFFF#16).extractLsb' 8 8 ^^^ 0x00#8 := by decide
theorem witness_WhoReadsAndWritesAcc :
    (0x0000#16 ≠ (st 0xFFFF#16 [] []).acc) ∧
    (∃ t, exec (.crc16Update 0xFF#8) (st 0xFFFF#16 [] []) = .next t) ∧
    (∃ t, exec (.xmodemUpdate 0xFF#8) (st 0xFFFF#16 [] []) = .next t) ∧
    (∃ t, exec .read (st 0xFFFF#16 [] []) = .next t) ∧
    (0 ≠ 1 ∧ ∃ sys, systemEvent 1 .reset [st 0x1234#16 [] [], st 0x5678#16 [] []] = .next sys) :=
  ⟨by decide, ⟨_, rfl⟩, ⟨_, rfl⟩, ⟨_, rfl⟩, by decide, ⟨_, rfl⟩⟩
theorem witness_EffectDependsOnAccAlone :
    (st 0x31C3#16 [] []).acc = (st 0x31C3#16 [0x0001#16] [.idle]).acc := by decide
theorem witness_StepRunsDecodedCommand :
    (st 0xFFFF#16 [] [.command 0x20031#19, .idle]).pending = .command 0x20031#19 :: [.idle] ∧
    decode 0x20031#19 = .ok (.crc16Update 0x31#8) := by decide
theorem witness_StepRefusesExactlyReservedWords :
    (st 0xFFFF#16 [] [.command 0x20100#19]).pending = .command 0x20100#19 :: [] ∧ CmdWord.legal 0x20100#19 = false ∧
    step (st 0xFFFF#16 [] [.command 0x20100#19]) = .refused (.reservedWord .updateHighByte) := ⟨rfl, by decide, rfl⟩
theorem witness_IdleChangesNothing :
    (st 0x1234#16 [] []).pending = [] ∧ (st 0x1234#16 [] [.idle, .reset]).pending = .idle :: [.reset] := by decide
theorem witness_ResetDrawsAccAndEmptiesRsp :
    (st 0x1234#16 [0x0001#16] [.reset, .command 0x60000#19]).pending = .reset :: [.command 0x60000#19] ∧
    decode 0x60000#19 = .ok .read := by decide
theorem witness_TableWordRunsNext : decodeTableWord 24 0x300FF = some (.xmodemUpdate 0xFF#8) := by decide
theorem witness_StepChangesByCommandOrResetOnly :
    (∃ t, step (st 0x1234#16 [] []) = .next t) ∧ (∃ t, step (st 0x1234#16 [] [.command 0x60000#19]) = .next t) ∧
    (∃ t, step (st 0x1234#16 [] [.command 0x00000#19]) = .next t) ∧ (∃ t, step (st 0x1234#16 [] [.reset]) = .next t) :=
  ⟨⟨_, rfl⟩, ⟨_, rfl⟩, ⟨_, rfl⟩, ⟨_, rfl⟩⟩
theorem witness_CommandsEndAfterAsManySteps : 0 ≤ [Instr.crc16Init, .read].length ∧ 2 ≤ [Instr.crc16Init, .read].length := by decide
theorem witness_InitialisedRunsForgetAcc :
    keepsBoot [.crc16Init, .xmodemUpdate 0x32#8, .read] = true ∧
    keepsContracts .unbegun [.load 0x30BA#16, .crc16Update 0x35#8, .read, .xmodemInit, .xmodemUpdate 0x31#8, .read] = true ∧
    [Instr.load 0x30BA#16] ≠ [] := by decide
/-- What the contracts exclude: no INIT (R96), two variants in one stream (R99). -/
theorem test_contracts_broken :
    keepsBoot [.read] = false ∧ keepsBoot [.crc16Update 0x00#8] = false ∧ keepsContracts .unbegun [.read] = false ∧ keepsContracts .unbegun [.crc16Init, .xmodemUpdate 0x32#8] = false := by decide
theorem witness_LegalPlansStayLegal :
    HostContract (st 0x1234#16 [] [.command 0x00000#19, .command 0x200FF#19, .reset, .command 0x60000#19, .idle]) := by
  intro e he
  simp only [st, List.mem_cons, List.not_mem_nil, or_false] at he
  rcases he with rfl | rfl | rfl | rfl | rfl <;> decide
theorem witness_LegalPlansNeverStop : HostContract (st 0x1234#16 [] [.command 0x4FFFF#19]) := by
  intro e he
  simp only [st, List.mem_cons, List.not_mem_nil, or_false] at he
  subst he
  decide
theorem witness_InstancesShareNothing :
    (∃ sys, systemRun [(0, .command 0x00000#19), (1, .command 0x60000#19)] [st 0x1234#16 [] [], st 0x5678#16 [] []] = .next sys) ∧
    (∀ k s, [st 0x1234#16 [] []][k]? = some s → ∃ t, engineRun (eventsFor k [(0, HostEvent.command 0x60000#19)]) s = .next t) := by
  refine ⟨⟨_, rfl⟩, fun k s h => ?_⟩
  cases k with
  | zero => exact ⟨_, rfl⟩
  | succ k => simp at h
theorem witness_PortCycleObeysReset : decode 0x60000#19 = .ok .read ∧ decode 0x30001#19 = .ok (.xmodemUpdate 0x01#8) := by decide
theorem witness_PortRunRefinesSteps :
    (∃ p, portRun [⟨false, true, 0x10000#19⟩, ⟨false, true, 0x60000#19⟩] (st 0x1234#16 [] []) = .next p) ∧
    ∀ i ∈ [(⟨false, true, 0x10000#19⟩ : PortIn), ⟨false, true, 0x60000#19⟩], i.rst = false :=
  ⟨⟨_, rfl⟩, by decide⟩
theorem witness_PseudoInstructionsExpand : ∀ c ∈ ['1', ';'], c.toNat < 128 ∧ c ≠ '"' := by
  intro c h
  simp only [List.mem_cons, List.not_mem_nil, or_false] at h
  rcases h with rfl | rfl <;> decide
theorem witness_CommandTextAssembles : 0xFF < 0x100 ∧ 0xFFFF < 0x10000 := by decide

end Sys2Proof.Tests
end

section
/-! One step on a presented command word, and the obligation that says so. -/

namespace Sys2Proof.Machine

@[simp] theorem applyEvent_command (w : CmdWord) (s : State) : applyEvent (.command w) s = issueWord w s := rfl

/-- R31, R39: presenting a word that decodes to `i` makes the step `exec i`, with the word gone from the host's plans. -/
theorem step_of_command {s : State} {w : CmdWord} {rest : List HostEvent} {i : Instr}
    (hw : s.pending = .command w :: rest) (hi : decode w = .ok i) : step s = exec i { s with pending := rest } := by
  rw [step_of_event hw, applyEvent_command, issueWord_ok hi]

/-- Settles O29: the presented word is issued, and issuing a decodable word executes its command. -/
theorem stepRunsDecodedCommand : Obligations.StepRunsDecodedCommand :=
  fun _ _ _ _ => step_of_command

end Sys2Proof.Machine
end

section
/-! What a command does, said once: the ACC it leaves and the values it emits, both read from ACC alone. -/

namespace Sys2Proof.Machine

/-- The ACC a command leaves on the ACC `c` (R15). -/
def accAfter : Instr → Word → Word
  | .crc16Init, _ => Config.initRefl
  | .xmodemInit, _ => Config.initNonrefl
  | .crc16Update d, c => crc16Update c d
  | .xmodemUpdate d, c => crcXmodemUpdate c d
  | .load v, _ => v
  | .read, c => c

/-- The values a command appends to RSP when ACC is `c` (R18). -/
def emitted (i : Instr) (c : Word) : List Word := if i = .read then [c] else []

@[simp] theorem emitted_read (c : Word) : emitted .read c = [c] := rfl

theorem emitted_of_ne_read {i : Instr} (h : i ≠ .read) (c : Word) : emitted i c = [] := if_neg h

/-- R12, R17: every command completes; it writes ACC, appends to RSP, and touches no other field. -/
theorem exec_eq (i : Instr) (s : State) :
    exec i s = .next { s with acc := accAfter i s.acc, rsp := s.rsp ++ emitted i s.acc } := by
  cases i with
  | read => rfl
  | crc16Init | xmodemInit | crc16Update d | xmodemUpdate d | load v =>
    rw [emitted_of_ne_read (by simp), List.append_nil]
    rfl

theorem exec_eq_next {i : Instr} {s t : State} :
    exec i s = .next t ↔ t = { s with acc := accAfter i s.acc, rsp := s.rsp ++ emitted i s.acc } := by
  rw [exec_eq, Host.Outcome.next.injEq, eq_comm]

/-- Settles O27: the written ACC and the emitted values are functions of the command and the ACC before. -/
theorem effectDependsOnAccAlone : Obligations.EffectDependsOnAccAlone := by
  intro i s t h
  refine ⟨accAfter i s.acc, emitted i s.acc, exec_eq i s, ?_⟩
  rw [h]
  exact exec_eq i t

/-- Settles O26: what a command appends is `emitted`, whatever RSP holds. -/
theorem onlyReadAppendsAndNothingReadsRsp : Obligations.OnlyReadAppendsAndNothingReadsRsp := by
  refine ⟨rfl, State.takeReset_rsp, fun i s => ⟨accAfter i s.acc, emitted i s.acc, ?_, fun r => exec_eq i _⟩⟩
  split
  case isTrue h => rw [h, emitted_read]
  case isFalse h => exact emitted_of_ne_read h _

/-- Settles O33: power-on takes draw 0, and the next RESET takes draw 1. -/
theorem powerOnState : Obligations.PowerOnState :=
  ⟨⟨0, rfl, Nat.zero_lt_one⟩, rfl, rfl⟩

end Sys2Proof.Machine
end

section
/-! An update loses nothing of ACC: a step of either updater is injective when its polynomial has the bit that the shift vacates. -/

namespace Sys2Proof.Machine

/-- R48, bit by bit. -/
theorem reflStep_bit (P c : Word) (j : Nat) :
    (reflStep P c).getLsbD j = Bool.xor (c.getLsbD (j + 1)) (c.getLsbD 0 && P.getLsbD j) := by
  unfold reflStep
  cases c.getLsbD 0 <;> simp [Nat.add_comm 1 j]

/-- R58, bit by bit. -/
theorem nonreflStep_bit (P c : Word) {j : Nat} (hj : j < 16) :
    (nonreflStep P c).getLsbD j =
      Bool.xor (decide (0 < j) && c.getLsbD (j - 1)) (c.getLsbD 15 && P.getLsbD j) := by
  have hshift : (c <<< 1).getLsbD j = (decide (0 < j) && c.getLsbD (j - 1)) := by
    rw [BitVec.getLsbD_shiftLeft, decide_eq_true hj, Bool.true_and]
    simp only [← decide_not, Nat.not_lt, Nat.succ_le_iff]
  unfold nonreflStep
  cases c.getLsbD 15
  · rw [if_neg Bool.false_ne_true, hshift, Bool.false_and, Bool.xor_false]
  · rw [if_pos rfl, BitVec.getLsbD_xor, hshift, Bool.true_and]

/-- The tested bit is bit 15 of the result, and with it every other bit can be taken back. -/
theorem reflStep_injective {P : Word} (hP : P.getLsbD 15 = true) : Function.Injective (reflStep P) := by
  intro a b hab
  have hbit (j : Nat) : Bool.xor (a.getLsbD (j + 1)) (a.getLsbD 0 && P.getLsbD j) =
      Bool.xor (b.getLsbD (j + 1)) (b.getLsbD 0 && P.getLsbD j) := by
    rw [← reflStep_bit, ← reflStep_bit, hab]
  have htest : a.getLsbD 0 = b.getLsbD 0 := by
    simpa only [hP, Bool.and_true, BitVec.getLsbD_of_ge _ (15 + 1) le_rfl, Bool.false_xor] using hbit 15
  refine BitVec.eq_of_getLsbD_eq fun j _ => ?_
  cases j with
  | zero => exact htest
  | succ j => exact Bool.xor_left_inj.mp (htest ▸ hbit j)

/-- The tested bit is bit 0 of the result, and with it every other bit can be taken back. -/
theorem nonreflStep_injective {P : Word} (hP : P.getLsbD 0 = true) : Function.Injective (nonreflStep P) := by
  intro a b hab
  have hbit {j : Nat} (hj : j < 16) :
      Bool.xor (decide (0 < j) && a.getLsbD (j - 1)) (a.getLsbD 15 && P.getLsbD j) =
        Bool.xor (decide (0 < j) && b.getLsbD (j - 1)) (b.getLsbD 15 && P.getLsbD j) := by
    rw [← nonreflStep_bit P a hj, ← nonreflStep_bit P b hj, hab]
  have htest : a.getLsbD 15 = b.getLsbD 15 := by
    simpa only [hP, Bool.and_true, Nat.lt_irrefl, decide_false, Bool.false_and, Bool.false_xor] using
      hbit (j := 0) (by decide)
  refine BitVec.eq_of_getLsbD_eq fun j hj => ?_
  rcases Nat.lt_succ_iff_lt_or_eq.mp hj with hlow | rfl
  · have hnext := hbit (Nat.succ_lt_succ hlow)
    rw [htest] at hnext
    simpa only [Nat.succ_pos, decide_true, Bool.true_and, Nat.succ_sub_one] using Bool.xor_left_inj.mp hnext
  · exact htest

theorem iter_injective {α : Type} {f : α → α} (hf : Function.Injective f) (n : Nat) :
    Function.Injective (iter f n) := by
  induction n with
  | zero => exact Function.injective_id
  | succ n ih => exact hf.comp ih

theorem crc16Update_injective (d : Byte) : Function.Injective fun c : Word => crc16Update c d :=
  (iter_injective (reflStep_injective (P := Config.polyRefl) (by decide)) _).comp fun _ _ => (BitVec.xor_left_inj _).mp

theorem crcXmodemUpdate_injective (d : Byte) : Function.Injective fun c : Word => crcXmodemUpdate c d :=
  (iter_injective (nonreflStep_injective (P := Config.polyNonrefl) (by decide)) _).comp fun _ _ => (BitVec.xor_left_inj _).mp

end Sys2Proof.Machine
end

section
/-! What an event to one engine does to every engine of a system (R20). -/

namespace Sys2Proof.Machine

/-- What an event sent to engine `j` does to engine `k`. -/
def effectOn (k j : Nat) (e : HostEvent) (s : State) : Host.Outcome State Fault Refusal :=
  if j = k then applyEvent e s else .next s

/-- An engine's own run of an interleaving, taken event by event. -/
theorem engineRun_eventsFor_cons (k j : Nat) (e : HostEvent) (es : List (Nat × HostEvent)) (s : State) :
    engineRun (eventsFor k ((j, e) :: es)) s = andThen (effectOn k j e s) (engineRun (eventsFor k es)) := by
  rw [eventsFor, effectOn]
  split <;> rfl

theorem systemEvent_absent {j : Nat} {sys : System} (h : sys[j]? = none) (e : HostEvent) :
    systemEvent j e sys = .next sys := by
  simp [systemEvent, h]

theorem systemEvent_present {j : Nat} {sys : System} {s : State} (h : sys[j]? = some s) (e : HostEvent) :
    systemEvent j e sys = andThen (applyEvent e s) fun s' => .next (sys.set j s') := by
  simp [systemEvent, h]

/-- Everything a completed event can do: nothing where the engine is absent, else its effect on that engine. -/
theorem systemEvent_cases {j : Nat} {e : HostEvent} {sys sys' : System} (h : systemEvent j e sys = .next sys') :
    (sys[j]? = none ∧ sys' = sys) ∨
    (∃ s t, sys[j]? = some s ∧ applyEvent e s = .next t ∧ sys' = sys.set j t) := by
  cases hj : sys[j]? with
  | none =>
    rw [systemEvent_absent hj, Host.Outcome.next.injEq] at h
    exact .inl ⟨rfl, h.symm⟩
  | some s =>
    rw [systemEvent_present hj] at h
    obtain ⟨t, ht, hset⟩ := andThen_eq_next.mp h
    exact .inr ⟨s, t, rfl, ht, (Host.Outcome.next.inj hset).symm⟩

theorem systemEvent_length {j : Nat} {e : HostEvent} {sys sys' : System} (h : systemEvent j e sys = .next sys') :
    sys'.length = sys.length := by
  obtain ⟨-, rfl⟩ | ⟨s, t, -, -, rfl⟩ := systemEvent_cases h
  · rfl
  · exact List.length_set

/-- An event of one engine leaves every other as it was. -/
theorem systemEvent_other {j k : Nat} {e : HostEvent} {sys sys' : System} (hjk : j ≠ k)
    (h : systemEvent j e sys = .next sys') : sys'[k]? = sys[k]? := by
  obtain ⟨-, rfl⟩ | ⟨s, t, -, -, rfl⟩ := systemEvent_cases h
  · rfl
  · exact List.getElem?_set_ne hjk

/-- After a completed event every engine is where the event's effect on it takes it. -/
theorem systemEvent_effectOn {j k : Nat} {e : HostEvent} {sys sys' : System} {s : State}
    (h : systemEvent j e sys = .next sys') (hs : sys[k]? = some s) :
    ∃ t, effectOn k j e s = .next t ∧ sys'[k]? = some t := by
  unfold effectOn
  split
  case isFalse hjk => exact ⟨s, rfl, (systemEvent_other hjk h).trans hs⟩
  case isTrue hjk =>
    subst hjk
    obtain ⟨hnone, -⟩ | ⟨s', t, hs', ht, rfl⟩ := systemEvent_cases h
    · simp [hs] at hnone
    · obtain rfl : s = s' := Option.some.inj (hs.symm.trans hs')
      exact ⟨t, ht, by rw [List.getElem?_set_self', hs]; rfl⟩

/-- An event completes when its effect on every engine does. -/
theorem systemEvent_completes {j : Nat} {e : HostEvent} {sys : System}
    (h : ∀ k s, sys[k]? = some s → ∃ t, effectOn k j e s = .next t) : ∃ sys', systemEvent j e sys = .next sys' := by
  cases hj : sys[j]? with
  | none => exact ⟨sys, systemEvent_absent hj e⟩
  | some s =>
    obtain ⟨t, ht⟩ := h j s hj
    rw [effectOn, if_pos rfl] at ht
    exact ⟨sys.set j t, by rw [systemEvent_present hj, ht, andThen_next]⟩

/-- A completed run keeps the number of instances. -/
theorem systemRun_length {es : List (Nat × HostEvent)} {sys sys' : System} (h : systemRun es sys = .next sys') :
    sys'.length = sys.length := by
  induction es generalizing sys with
  | nil => rw [Host.Outcome.next.inj h]
  | cons je es ih =>
    obtain ⟨mid, hmid, hrest⟩ := andThen_eq_next.mp h
    exact (ih hrest).trans (systemEvent_length hmid)

/-- A completed run takes each engine where its own events take it. -/
theorem systemRun_projects {es : List (Nat × HostEvent)} {sys sys' : System} {k : Nat} {s : State}
    (h : systemRun es sys = .next sys') (hs : sys[k]? = some s) :
    ∃ t, engineRun (eventsFor k es) s = .next t ∧ sys'[k]? = some t := by
  induction es generalizing sys s with
  | nil => exact ⟨s, rfl, Host.Outcome.next.inj h ▸ hs⟩
  | cons je es ih =>
    obtain ⟨mid, hmid, hrest⟩ := andThen_eq_next.mp h
    obtain ⟨u, hu, hmidk⟩ := systemEvent_effectOn hmid hs
    rw [engineRun_eventsFor_cons, hu, andThen_next]
    exact ih hrest hmidk

/-- A run completes when each engine's own run does. -/
theorem systemRun_completes {es : List (Nat × HostEvent)} {sys : System}
    (h : ∀ k s, sys[k]? = some s → ∃ t, engineRun (eventsFor k es) s = .next t) :
    ∃ sys', systemRun es sys = .next sys' := by
  induction es generalizing sys with
  | nil => exact ⟨sys, rfl⟩
  | cons je es ih =>
    obtain ⟨j, e⟩ := je
    have hsplit (k : Nat) (s : State) (hs : sys[k]? = some s) :
        ∃ u, effectOn k j e s = .next u ∧ ∃ t, engineRun (eventsFor k es) u = .next t := by
      obtain ⟨t, ht⟩ := h k s hs
      rw [engineRun_eventsFor_cons] at ht
      obtain ⟨u, hu, hrun⟩ := andThen_eq_next.mp ht
      exact ⟨u, hu, t, hrun⟩
    obtain ⟨mid, hmid⟩ := systemEvent_completes fun k s hs => (hsplit k s hs).imp fun _ => And.left
    have hrest (k : Nat) (u : State) (hu : mid[k]? = some u) : ∃ t, engineRun (eventsFor k es) u = .next t := by
      obtain ⟨hk, -⟩ := List.getElem?_eq_some_iff.mp hu
      have hs := List.getElem?_eq_getElem (systemEvent_length hmid ▸ hk)
      obtain ⟨v, hv, hrun⟩ := hsplit k _ hs
      obtain ⟨v', hv', hmidk⟩ := systemEvent_effectOn hmid hs
      obtain rfl : v = v' := Host.Outcome.next.inj (hv.symm.trans hv')
      obtain rfl : v = u := Option.some.inj (hmidk.symm.trans hu)
      exact hrun
    obtain ⟨sys', hsys'⟩ := ih hrest
    exact ⟨sys', andThen_eq_next.mpr ⟨mid, hmid, hsys'⟩⟩

/-- Settles O50: the system's run projects to each engine's own run, and completes when all of those do. -/
theorem instancesShareNothing : Obligations.InstancesShareNothing :=
  fun _ _ => ⟨fun _ h => ⟨systemRun_length h, fun _ _ => systemRun_projects h⟩, systemRun_completes⟩

end Sys2Proof.Machine
end

section
/-! Who reads and writes ACC (R15). -/

namespace Sys2Proof.Machine

/-- A command whose ACC after is injective in the ACC before reads ACC: on another ACC it leaves another. -/
theorem exec_acc_ne {i : Instr} {s t : State} {a : Word} (hinj : Function.Injective (accAfter i)) (ha : a ≠ s.acc)
    (ht : exec i s = .next t) : ∃ u, exec i { s with acc := a } = .next u ∧ u.acc ≠ t.acc := by
  rw [exec_eq_next] at ht
  subst ht
  exact ⟨_, exec_eq i _, hinj.ne ha⟩

/-- READ reads ACC: on another ACC it appends another value. -/
theorem exec_read_rsp_ne {s t : State} {a : Word} (ha : a ≠ s.acc) (ht : exec .read s = .next t) :
    ∃ u, exec .read { s with acc := a } = .next u ∧ u.rsp ≠ t.rsp := by
  rw [exec_eq_next] at ht
  subst ht
  exact ⟨_, exec_eq .read _, by simpa using ha⟩

/-- Settles O25: writes by `exec_eq`, reads by the injectivity of the updates, and no write from outside by `systemEvent_other`. -/
theorem whoReadsAndWritesAcc : Obligations.WhoReadsAndWritesAcc := by
  refine ⟨fun s => ⟨_, exec_eq _ s, rfl⟩, fun s => ⟨_, exec_eq _ s, rfl⟩, fun d s => ⟨_, exec_eq _ s, rfl⟩,
    fun d s => ⟨_, exec_eq _ s, rfl⟩, fun v s => ⟨_, exec_eq _ s, rfl⟩, fun s => ⟨_, exec_eq _ s, rfl⟩,
    fun s a => ⟨rfl, rfl, fun v => rfl⟩, fun s a ha => ⟨?_, ?_, ?_⟩, fun s => rfl, ?_⟩
  · exact fun d _ => exec_acc_ne (crc16Update_injective d) ha
  · exact fun d _ => exec_acc_ne (crcXmodemUpdate_injective d) ha
  · exact fun _ => exec_read_rsp_ne ha
  · exact fun j k e sys sys' hjk => systemEvent_other hjk.symm

end Sys2Proof.Machine
end

section
/-! A word that decodes to a command is the command's encoding. -/

namespace Sys2Proof

/-- R37: an UPDATE's operand is a zero byte and its `imm8` exactly when its high byte is zero. -/
theorem arg_eq_of_argHigh_zero {w : CmdWord} (h : w.argHigh = 0x00#8) : w.arg = 0x00#8 ++ w.argLow := by
  have hsplit : w.arg = w.argHigh ++ w.argLow := by
    rw [CmdWord.argHigh, CmdWord.argLow, BitVec.extractLsb'_append_extractLsb'_eq_extractLsb' (by decide)]
    exact (BitVec.extractLsb'_eq_self).symm
  rw [hsplit, h]

/-- R35: class READ is the class that is none of the other three. -/
theorem cls_eq_read {w : CmdWord} (hinit : w.cls ≠ 0b00#2) (hupd : w.cls ≠ 0b01#2) (hload : w.cls ≠ 0b10#2) :
    w.cls = 0b11#2 := by
  revert hinit hupd hload
  generalize w.cls = c
  revert c
  decide

/-- R39, R40: a word that decodes to a command is that command's one encoding. -/
theorem encode_of_decode {w : CmdWord} {i : Instr} (h : decode w = .ok i) : encode i = w := by
  have hone (hvar : w.var ≠ 0#1) : w.var = 1#1 := (BitVec.eq_zero_or_eq_one w.var).resolve_left hvar
  rw [← ofFields_of_fields w]
  unfold decode decodeInit decodeUpdate decodeLoad decodeRead at h
  split_ifs at h with hinit harg hvar hupd hhigh hvar hload hvar hvar harg <;>
    obtain rfl := Except.ok.inj h
  · rw [hinit, hvar, harg, encode]
  · rw [hinit, hone hvar, harg, encode]
  · rw [hupd, hvar, arg_eq_of_argHigh_zero hhigh, encode]
  · rw [hupd, hone hvar, arg_eq_of_argHigh_zero hhigh, encode]
  · rw [hload, hvar, encode]
  · rw [cls_eq_read hinit hupd hload, hvar, harg, encode]

end Sys2Proof
end

section
/-! What one step can change. -/

namespace Sys2Proof.Machine

/-- Everything a completed event can do. -/
theorem applyEvent_cases {e : HostEvent} {s t : State} (h : applyEvent e s = .next t) :
    (e = .idle ∧ t = s) ∨ (e = .reset ∧ t = s.takeReset) ∨
    (∃ w i, e = .command w ∧ decode w = .ok i ∧ exec i s = .next t) := by
  cases e with
  | idle => exact .inl ⟨rfl, (Host.Outcome.next.inj h).symm⟩
  | reset => exact .inr (.inl ⟨rfl, (Host.Outcome.next.inj h).symm⟩)
  | command w =>
    rw [applyEvent_command] at h
    obtain ⟨i, hi, hexec⟩ | ⟨why, -, hrefused⟩ := issueWord_cases w s
    · exact .inr (.inr ⟨w, i, rfl, hi, hexec ▸ h⟩)
    · simp [hrefused] at h

/-- Settles O35, by what the host presents: nothing, an idle period, RESET, READ, another legal command. -/
theorem stepChangesByCommandOrResetOnly : Obligations.StepChangesByCommandOrResetOnly := by
  intro s t h
  cases hp : s.pending with
  | nil =>
    rw [step_of_empty hp, Host.Outcome.next.injEq] at h
    subst h
    exact ⟨rfl, hp, .inl ⟨rfl, rfl, rfl, .inl rfl⟩⟩
  | cons e rest =>
    rw [step_of_event hp] at h
    obtain ⟨rfl, rfl⟩ | ⟨rfl, rfl⟩ | ⟨w, i, rfl, hi, hexec⟩ := applyEvent_cases h
    · exact ⟨rfl, rfl, .inl ⟨rfl, rfl, rfl, .inr rfl⟩⟩
    · exact ⟨rfl, rfl, .inr (.inr (.inr ⟨rfl, rfl, rfl, rfl⟩))⟩
    · have ht := exec_eq_next.mp hexec
      by_cases hread : i = .read
      · subst hread ht
        have hw : w = 0x60000#19 := (encode_of_decode hi).symm
        exact ⟨rfl, rfl, .inr (.inl ⟨rfl, rfl, rfl, hw ▸ rfl⟩)⟩
      · have hrsp : t.rsp = s.rsp := by rw [ht, emitted_of_ne_read hread]; exact List.append_nil _
        exact ⟨by rw [ht], by rw [ht]; rfl, .inr (.inr (.inl ⟨hrsp, by rw [ht], w, i, rfl, hi, hread, hexec⟩))⟩

end Sys2Proof.Machine
end

section
/-! The bits of a byte reach the tests in order (R26): every step brings the first difference of two words, in the order in which the
tests read bits, one place nearer to the test. -/

namespace Sys2Proof.Machine

/-- Of the places up to number `k`, two words differ at number `k` alone; `place j` is the bit that the test `j` iterations on reads. -/
def FirstDiffAt (place : Nat → Nat) (k : Nat) (x y : Word) : Prop :=
  ∀ j, j ≤ k → x.getLsbD (place j) = Bool.xor (y.getLsbD (place j)) (decide (j = k))

section
variable {place : Nat → Nat} {k : Nat} {x y : Word}

/-- The test reads place 0: it differs when the first difference is there. -/
theorem FirstDiffAt.test_ne (h : FirstDiffAt place 0 x y) : x.getLsbD (place 0) = !y.getLsbD (place 0) :=
  (h 0 le_rfl).trans (Bool.xor_true _)

/-- The test does not see a difference that is farther on. -/
theorem FirstDiffAt.test_eq (h : FirstDiffAt place k x y) (hk : 0 < k) : x.getLsbD (place 0) = y.getLsbD (place 0) := by
  rw [h 0 hk.le, decide_eq_false hk.ne, Bool.xor_false]

/-- A reflected step brings the next bit up to the test. -/
theorem reflStep_firstDiffAt (P : Word) (h : FirstDiffAt id (k + 1) x y) :
    FirstDiffAt id k (reflStep P x) (reflStep P y) := by
  have htest : x.getLsbD 0 = y.getLsbD 0 := h.test_eq k.succ_pos
  intro j hj
  have hnext : x.getLsbD (j + 1) = Bool.xor (y.getLsbD (j + 1)) (decide (j = k)) := by
    simpa only [id, Nat.add_right_cancel_iff] using h (j + 1) (Nat.succ_le_succ hj)
  rw [id, reflStep_bit, reflStep_bit, htest, hnext, Bool.xor_right_comm]

/-- A non-reflected step brings the next bit from the top up to the test. -/
theorem nonreflStep_firstDiffAt (P : Word) (hk : k < 15) (h : FirstDiffAt (15 - ·) (k + 1) x y) :
    FirstDiffAt (15 - ·) k (nonreflStep P x) (nonreflStep P y) := by
  have htest : x.getLsbD 15 = y.getLsbD 15 := h.test_eq k.succ_pos
  intro j hj
  have hnext : x.getLsbD (15 - j - 1) = Bool.xor (y.getLsbD (15 - j - 1)) (decide (j = k)) := by
    simpa only [Nat.add_right_cancel_iff, Nat.sub_sub] using h (j + 1) (Nat.succ_le_succ hj)
  have hpos : 0 < 15 - j := by omega
  have hlt : 15 - j < 16 := by omega
  beta_reduce
  rw [nonreflStep_bit P x hlt, nonreflStep_bit P y hlt, decide_eq_true hpos, Bool.true_and, Bool.true_and,
    htest, hnext, Bool.xor_right_comm]

end

section
variable {place : Nat → Nat} {f : Word → Word}
  (hf : ∀ {k x y}, k < 15 → FirstDiffAt place (k + 1) x y → FirstDiffAt place k (f x) (f y))
include hf

/-- Steps that each bring the difference one place nearer to the test bring it `n` places nearer in `n` iterations. -/
theorem iter_firstDiffAt (n : Nat) {k : Nat} {x y : Word} (hk : k + n < 16) (h : FirstDiffAt place (k + n) x y) :
    FirstDiffAt place k (iter f n x) (iter f n y) := by
  induction n generalizing k with
  | zero => exact h
  | succ n ih => exact hf (by omega) (ih (k := k + 1) (by omega) (by rwa [Nat.add_right_comm]))

/-- So the iteration that tests the difference is the first whose test differs. -/
theorem iter_tests_of_firstDiffAt {k : Nat} {x y : Word} (hk : k < 16) (h : FirstDiffAt place k x y) :
    (iter f k x).getLsbD (place 0) = !(iter f k y).getLsbD (place 0) ∧
    ∀ j, j < k → (iter f j x).getLsbD (place 0) = (iter f j y).getLsbD (place 0) := by
  have hdist (j : Nat) (hj : j ≤ k) : FirstDiffAt place (k - j) (iter f j x) (iter f j y) :=
    iter_firstDiffAt hf j (by omega) (by rwa [Nat.sub_add_cancel hj])
  exact ⟨(Nat.sub_self k ▸ hdist k le_rfl).test_ne, fun j hj => (hdist j hj.le).test_eq (Nat.sub_pos_of_lt hj)⟩

end

/-- The bits of a byte of which one is changed. -/
theorem flippedByte_bit (d : Byte) {k : Nat} (hk : k < 8) (i : Nat) :
    (d ^^^ (1#8 <<< k)).getLsbD i = Bool.xor (d.getLsbD i) (decide (i = k)) := by
  rw [BitVec.getLsbD_xor, ← BitVec.twoPow_eq, BitVec.getLsbD_twoPow, decide_eq_true hk, Bool.true_and]
  simp only [eq_comm]

/-- Changing bit `k` of the byte changes bit `k` of the low half it meets. -/
theorem xor_zext16_firstDiffAt (c : Word) (d : Byte) {k : Nat} (hk : k < 8) :
    FirstDiffAt id k (c ^^^ zext16 (d ^^^ (1#8 <<< k))) (c ^^^ zext16 d) := by
  intro j _
  simp only [id, BitVec.getLsbD_xor, zext16_bit, flippedByte_bit d hk, Bool.xor_assoc]

/-- Changing bit `7 - k` of the byte changes bit `15 - k` of the high half it meets. -/
theorem xor_byteHigh_firstDiffAt (c : Word) (d : Byte) {k : Nat} (hk : k < 8) :
    FirstDiffAt (15 - ·) k (c ^^^ byteHigh (d ^^^ (1#8 <<< (7 - k)))) (c ^^^ byteHigh d) := by
  intro j hj
  have hhigh : 8 ≤ 15 - j := by omega
  have hplace : 15 - j - 8 = 7 - k ↔ j = k := by omega
  simp only [BitVec.getLsbD_xor, byteHigh_bit, decide_eq_true hhigh, Bool.true_and,
    flippedByte_bit d (Nat.sub_lt_succ 7 k), hplace, Bool.xor_assoc]

/-- Settles O17: the changed bit is the first difference, and every step brings it one place nearer to the test. -/
theorem bitsOfAByteAreConsumedInOrder : Obligations.BitsOfAByteAreConsumedInOrder := by
  intro c d k hk
  obtain ⟨hreflK, hreflBefore⟩ := iter_tests_of_firstDiffAt (fun _ => reflStep_firstDiffAt 0xA001#16)
    (hk.trans (by decide)) (xor_zext16_firstDiffAt c d hk)
  obtain ⟨hnonreflK, hnonreflBefore⟩ := iter_tests_of_firstDiffAt (nonreflStep_firstDiffAt 0x1021#16)
    (hk.trans (by decide)) (xor_byteHigh_firstDiffAt c d hk)
  exact ⟨hreflK, hreflBefore, hnonreflK, hnonreflBefore⟩

end Sys2Proof.Machine
end

section
/-! Where the byte meets the accumulator (R27). -/

namespace Sys2Proof.Machine

/-- The reflected variant's byte leaves the high half alone. -/
theorem highByte_xor_zext16 (c : Word) (d : Byte) : highByte (c ^^^ zext16 d) = highByte c := by
  refine BitVec.eq_of_getLsbD_eq fun i _ => ?_
  rw [highByte_bit, highByte_bit, BitVec.getLsbD_xor, zext16_bit, BitVec.getLsbD_of_ge d (8 + i) (by omega), Bool.xor_false]

/-- The non-reflected variant's byte leaves the low half alone. -/
theorem lowByte_xor_byteHigh (c : Word) (d : Byte) : lowByte (c ^^^ byteHigh d) = lowByte c := by
  refine BitVec.eq_of_getLsbD_eq fun i hi => ?_
  rw [lowByte_bit, lowByte_bit, BitVec.getLsbD_xor, byteHigh_bit, decide_eq_false (show ¬ 8 ≤ i by omega), Bool.false_and,
    Bool.xor_false]

/-- Settles O18: the eight steps start from the exclusive-or of ACC and the placed byte. -/
theorem byteMeetsOneHalfOfAcc : Obligations.ByteMeetsOneHalfOfAcc := by
  intro P c d
  refine ⟨⟨c ^^^ zext16 d, rfl, highByte_xor_zext16 c d, fun i _ => ?_⟩,
    ⟨c ^^^ byteHigh d, rfl, lowByte_xor_byteHigh c d, fun i _ => ?_⟩⟩
  · rw [BitVec.getLsbD_xor, zext16_bit]
  · rw [BitVec.getLsbD_xor, byteHigh_bit, decide_eq_true (Nat.le_add_left 8 i), Bool.true_and, Nat.add_sub_cancel]

end Sys2Proof.Machine
end

section
/-! A command's encoding decodes to it. -/

namespace Sys2Proof

/-- R40: decoding undoes encoding. -/
@[simp] theorem decode_encode (i : Instr) : decode (encode i) = .ok i := by
  cases i with
  | crc16Init | xmodemInit | read => decide
  | crc16Update d | xmodemUpdate d => simp [encode, decode, decodeUpdate]
  | load v => simp [encode, decode, decodeLoad]

end Sys2Proof
end

section
/-! The steps of a presented command list (R31, R32). -/

namespace Sys2Proof.Machine

/-- The step on a presented command list executes its first command, the rest of the list still presented. -/
theorem step_present_cons (i : Instr) (is : List Instr) (s : State) :
    step (s.present (eventsOf (i :: is))) = andThen (exec i s) fun t => .next (t.present (eventsOf is)) :=
  (step_of_command (State.present_pending s _) (decode_encode i)).trans (exec_present i s (eventsOf is))

/-- As many steps as commands run a presented list. -/
theorem runSteps_present (is : List Instr) (s : State) :
    runSteps is.length (s.present (eventsOf is)) = runCommands is s := by
  induction is generalizing s with
  | nil => rfl
  | cons i is ih =>
    calc runSteps (is.length + 1) (s.present (eventsOf (i :: is)))
      _ = andThen (step (s.present (eventsOf (i :: is)))) (runSteps is.length) := rfl
      _ = andThen (exec i s) fun t => runSteps is.length (t.present (eventsOf is)) := by
        rw [step_present_cons, andThen_assoc]
        rfl
      _ = andThen (exec i s) (runCommands is) := by rw [funext ih]

/-- A list is run part after part. -/
theorem runCommands_append (is js : List Instr) (s : State) :
    runCommands (is ++ js) s = andThen (runCommands is s) (runCommands js) := by
  induction is generalizing s with
  | nil => rfl
  | cons i is ih =>
    rw [List.cons_append, runCommands, runCommands, andThen_assoc, funext ih]

/-- Settles O36: both clauses by induction on the list of commands. -/
theorem stepsRunCommandsInIssueOrder : Obligations.StepsRunCommandsInIssueOrder :=
  ⟨runSteps_present, runCommands_append⟩

/-- READ leaves the ACC it emits, so every further READ emits it again. -/
theorem runCommands_replicate_read (n : Nat) (s : State) :
    runCommands (List.replicate n .read) s = .next { s with rsp := s.rsp ++ List.replicate n s.acc } := by
  induction n generalizing s with
  | zero => rw [List.replicate_zero, List.replicate_zero, List.append_nil]; rfl
  | succ n ih =>
    rw [List.replicate_succ, runCommands, exec_eq, andThen_next, ih, emitted_read, List.replicate_succ,
      List.append_assoc]
    rfl

/-- Settles O44: the steps of the presented READs are their run. -/
theorem repeatedReadsAppendTheSameValue : Obligations.RepeatedReadsAppendTheSameValue := by
  intro n s
  have hsteps := runSteps_present (List.replicate n .read) s
  rw [List.length_replicate] at hsteps
  rw [hsteps, runCommands_replicate_read]

end Sys2Proof.Machine
end

section
/-! A command word and its fields as numbers (R34, R40). -/

namespace Sys2Proof

theorem ofFields_toNat (cls : BitVec 2) (var : BitVec 1) (arg : BitVec 16) :
    (CmdWord.ofFields cls var arg).toNat = 0x20000 * cls.toNat + 0x10000 * var.toNat + arg.toNat := by
  rw [CmdWord.ofFields, BitVec.toNat_append, BitVec.toNat_append, ← Nat.shiftLeft_add_eq_or_of_lt (by omega),
    ← Nat.shiftLeft_add_eq_or_of_lt (by omega)]
  omega

theorem zeroByte_append_toNat (d : Byte) : (0x00#8 ++ d : BitVec 16).toNat = d.toNat := by
  rw [BitVec.toNat_append, BitVec.toNat_ofNat, Nat.zero_mod, Nat.zero_shiftLeft, Nat.zero_or]

theorem cls_toNat (w : CmdWord) : w.cls.toNat = w.toNat / 0x20000 := by
  simp only [CmdWord.cls, BitVec.extractLsb'_toNat, Nat.shiftRight_eq_div_pow]
  omega

theorem var_toNat (w : CmdWord) : w.var.toNat = w.toNat / 0x10000 % 2 := by
  simp [CmdWord.var, Nat.shiftRight_eq_div_pow]

theorem arg_toNat (w : CmdWord) : w.arg.toNat = w.toNat % 0x10000 := by
  simp [CmdWord.arg]

theorem argHigh_toNat (w : CmdWord) : w.argHigh.toNat = w.toNat / 0x100 % 0x100 := by
  simp only [CmdWord.argHigh, BitVec.extractLsb'_toNat, arg_toNat, Nat.shiftRight_eq_div_pow]
  omega

/-- R40's number of a command. -/
def commandNumber : Instr → Nat
  | .crc16Init => 0x00000
  | .xmodemInit => 0x10000
  | .crc16Update d => 0x20000 + d.toNat
  | .xmodemUpdate d => 0x30000 + d.toNat
  | .load v => 0x40000 + v.toNat
  | .read => 0x60000

theorem encode_toNat (i : Instr) : (encode i).toNat = commandNumber i := by
  cases i <;> simp [encode, commandNumber, ofFields_toNat, zeroByte_append_toNat]

/-- R40's sum of a base and an operand does not overflow. -/
theorem base_add_setWidth_toNat {base : CmdWord} {n : Nat} (x : BitVec n) (h : base.toNat + 2 ^ n ≤ 2 ^ 19) :
    (base + x.setWidth 19).toNat = base.toNat + x.toNat := by
  have hx := x.isLt
  rw [BitVec.toNat_add, BitVec.toNat_setWidth, Nat.mod_eq_of_lt (a := x.toNat) (by omega), Nat.mod_eq_of_lt (by omega)]

theorem encode_crc16Update (d : Byte) : encode (.crc16Update d) = 0x20000#19 + d.setWidth 19 := by
  rw [← BitVec.toNat_inj, encode_toNat, base_add_setWidth_toNat d (by decide)]
  rfl

theorem encode_xmodemUpdate (d : Byte) : encode (.xmodemUpdate d) = 0x30000#19 + d.setWidth 19 := by
  rw [← BitVec.toNat_inj, encode_toNat, base_add_setWidth_toNat d (by decide)]
  rfl

theorem encode_load (v : Word) : encode (.load v) = 0x40000#19 + v.setWidth 19 := by
  rw [← BitVec.toNat_inj, encode_toNat, base_add_setWidth_toNat v (by decide)]
  rfl

theorem encode_injective : Function.Injective encode := by
  intro i j hij
  have hdecode : decode (encode i) = decode (encode j) := congrArg decode hij
  rw [decode_encode, decode_encode] at hdecode
  exact Except.ok.inj hdecode

/-- Settles O4: the words by their numbers, and injectivity from the round trip. -/
theorem encodeAndDecodeAreInverse : Obligations.EncodeAndDecodeAreInverse :=
  ⟨rfl, rfl, encode_crc16Update, encode_xmodemUpdate, encode_load, rfl, decode_encode,
    fun _ _ => encode_of_decode, encode_injective⟩

/-- Settles O1: the six words by evaluation. -/
theorem writtenOutWordsDecode : Obligations.WrittenOutWordsDecode := by
  unfold Obligations.WrittenOutWordsDecode
  decide

end Sys2Proof
end

section
/-! The rows of the command map and the decoder name the same words (R38). -/

namespace Sys2Proof

/-- A word decodes to a command exactly when it is the command's number. -/
theorem decode_eq_ok_iff {w : CmdWord} {i : Instr} : decode w = .ok i ↔ w.toNat = commandNumber i := by
  rw [← encode_toNat, BitVec.toNat_inj]
  exact ⟨fun h => (encode_of_decode h).symm, fun h => h ▸ decode_encode i⟩

theorem and_highBits_toNat {n : Nat} (w : BitVec n) (k : Nat) :
    (w &&& BitVec.allOnes n <<< k).toNat = w.toNat / 2 ^ k * 2 ^ k := by
  rw [← BitVec.shiftLeft_ushiftRight, BitVec.toNat_shiftLeft, BitVec.toNat_ushiftRight, Nat.shiftRight_eq_div_pow,
    Nat.shiftLeft_eq, Nat.mod_eq_of_lt ((Nat.div_mul_le_self _ _).trans_lt w.isLt)]

section
variable (w p : CmdWord)

/-- The mask of the rows without an operand. -/
theorem and_fullMask_eq_iff : w &&& 0x7FFFF#19 = p ↔ w.toNat = p.toNat := by
  rw [show w &&& 0x7FFFF#19 = w from BitVec.and_allOnes, BitVec.toNat_inj]

/-- The mask of the UPDATE rows. -/
theorem and_updateMask_eq_iff : w &&& 0x7FF00#19 = p ↔ w.toNat / 0x100 * 0x100 = p.toNat := by
  rw [← BitVec.toNat_inj, show (w &&& 0x7FF00#19).toNat = w.toNat / 0x100 * 0x100 from and_highBits_toNat w 8]

/-- The mask of the LOAD row. -/
theorem and_loadMask_eq_iff : w &&& 0x70000#19 = p ↔ w.toNat / 0x10000 * 0x10000 = p.toNat := by
  rw [← BitVec.toNat_inj, show (w &&& 0x70000#19).toNat = w.toNat / 0x10000 * 0x10000 from and_highBits_toNat w 16]

variable {p}

/-- A word of an UPDATE row is the row's pattern and the byte the pattern's letters stand for. -/
theorem updateRow_iff (hp : p.toNat % 0x100 = 0) {d : Byte} :
    w &&& 0x7FF00#19 = p ∧ w.extractLsb' 0 8 = d ↔ w.toNat = p.toNat + d.toNat := by
  rw [and_updateMask_eq_iff, ← BitVec.toNat_inj, BitVec.extractLsb'_toNat, Nat.shiftRight_zero]
  omega

/-- A word of the LOAD row is the row's pattern and the value the pattern's letters stand for. -/
theorem loadRow_iff (hp : p.toNat % 0x10000 = 0) {v : Word} :
    w &&& 0x70000#19 = p ∧ w.extractLsb' 0 16 = v ↔ w.toNat = p.toNat + v.toNat := by
  rw [and_loadMask_eq_iff, ← BitVec.toNat_inj, BitVec.extractLsb'_toNat, Nat.shiftRight_zero]
  omega

end

section
variable (w : CmdWord)

theorem decode_crc16Init_iff : decode w = .ok .crc16Init ↔ w &&& 0x7FFFF#19 = 0x00000#19 := by
  rw [decode_eq_ok_iff, and_fullMask_eq_iff]
  rfl

theorem decode_xmodemInit_iff : decode w = .ok .xmodemInit ↔ w &&& 0x7FFFF#19 = 0x10000#19 := by
  rw [decode_eq_ok_iff, and_fullMask_eq_iff]
  rfl

theorem decode_read_iff : decode w = .ok .read ↔ w &&& 0x7FFFF#19 = 0x60000#19 := by
  rw [decode_eq_ok_iff, and_fullMask_eq_iff]
  rfl

theorem decode_crc16Update_iff (d : Byte) :
    decode w = .ok (.crc16Update d) ↔ w &&& 0x7FF00#19 = 0x20000#19 ∧ w.extractLsb' 0 8 = d := by
  rw [decode_eq_ok_iff, updateRow_iff w (by decide)]
  rfl

theorem decode_xmodemUpdate_iff (d : Byte) :
    decode w = .ok (.xmodemUpdate d) ↔ w &&& 0x7FF00#19 = 0x30000#19 ∧ w.extractLsb' 0 8 = d := by
  rw [decode_eq_ok_iff, updateRow_iff w (by decide)]
  rfl

theorem decode_load_iff (v : Word) :
    decode w = .ok (.load v) ↔ w &&& 0x70000#19 = 0x40000#19 ∧ w.extractLsb' 0 16 = v := by
  rw [decode_eq_ok_iff, loadRow_iff w (by decide)]
  rfl

end

theorem legal_iff_row {w : CmdWord} : CmdWord.legal w = true ↔ ∃ r ∈ commandMap, w &&& r.mask = r.pattern := by
  simp [CmdWord.legal, CommandRow.covers]

theorem encode_legal (i : Instr) : CmdWord.legal (encode i) = true := by
  cases i with
  | crc16Init => exact Laws.EncodesToRow.crc16Init
  | xmodemInit => exact Laws.EncodesToRow.xmodemInit
  | crc16Update d => exact Laws.EncodesToRow.crc16Update d
  | xmodemUpdate d => exact Laws.EncodesToRow.xmodemUpdate d
  | load v => exact Laws.EncodesToRow.load v
  | read => exact Laws.EncodesToRow.read

theorem decode_of_row {w : CmdWord} {r : CommandRow} (hr : r ∈ commandMap) (hw : w &&& r.mask = r.pattern) :
    ∃ i, decode w = .ok i := by
  simp only [commandMap, List.mem_cons, List.not_mem_nil, or_false] at hr
  obtain rfl | rfl | rfl | rfl | rfl | rfl := hr
  · exact ⟨_, (decode_crc16Init_iff w).mpr hw⟩
  · exact ⟨_, (decode_xmodemInit_iff w).mpr hw⟩
  · exact ⟨_, (decode_crc16Update_iff w _).mpr ⟨hw, rfl⟩⟩
  · exact ⟨_, (decode_xmodemUpdate_iff w _).mpr ⟨hw, rfl⟩⟩
  · exact ⟨_, (decode_load_iff w _).mpr ⟨hw, rfl⟩⟩
  · exact ⟨_, (decode_read_iff w).mpr hw⟩

/-- R38: the legal words are those the decoder reads. -/
theorem legal_iff_decode {w : CmdWord} : CmdWord.legal w = true ↔ ∃ i, decode w = .ok i := by
  constructor
  · intro h
    obtain ⟨r, hr, hw⟩ := legal_iff_row.mp h
    exact decode_of_row hr hw
  · rintro ⟨i, hi⟩
    exact encode_of_decode hi ▸ encode_legal i

/-- R41: the words that are not legal are those the decoder rejects. -/
theorem not_legal_iff_decode {w : CmdWord} : CmdWord.legal w = false ↔ ∃ why, decode w = .error why := by
  rw [← Bool.not_eq_true, legal_iff_decode]
  cases decode w <;> simp

/-- Two rows whose patterns differ under both masks share no word. -/
theorem rows_disjoint : commandMap.Pairwise
    fun r r' => ∀ w : CmdWord, ¬(w &&& r.mask = r.pattern ∧ w &&& r'.mask = r'.pattern) := by
  have hpatterns : commandMap.Pairwise fun r r' => r.pattern &&& r'.mask ≠ r'.pattern &&& r.mask := by decide
  refine hpatterns.imp fun {r r'} hne w ⟨hr, hr'⟩ => hne ?_
  rw [← hr, ← hr', BitVec.and_assoc, BitVec.and_comm r.mask, ← BitVec.and_assoc]

end Sys2Proof
end

section
/-! The legal and the reserved words as ranges of numbers, and how many there are (R38, R41). -/

namespace Sys2Proof

/-- The numbers in one of the closed ranges. -/
def inRanges (R : Finset (Nat × Nat)) : Finset Nat := R.biUnion fun r => Finset.Icc r.1 r.2

theorem mem_inRanges {R : Finset (Nat × Nat)} {n : Nat} : n ∈ inRanges R ↔ ∃ r ∈ R, r.1 ≤ n ∧ n ≤ r.2 := by
  simp [inRanges]

/-- Ranges that do not meet hold as many numbers as they are long. -/
theorem card_inRanges {R : Finset (Nat × Nat)} (h : ∀ r ∈ R, ∀ r' ∈ R, r ≠ r' → r.2 < r'.1 ∨ r'.2 < r.1) :
    (inRanges R).card = ∑ r ∈ R, (r.2 + 1 - r.1) := by
  rw [inRanges, Finset.card_biUnion]
  · simp only [Nat.card_Icc]
  · intro r hr r' hr' hne
    refine Finset.disjoint_left.mpr fun n hn hn' => ?_
    rw [Finset.mem_Icc] at hn hn'
    have := h r hr r' hr' hne
    omega

/-- The words with a property that says which ranges they lie in are as many as the numbers in the ranges. -/
theorem card_words_inRanges {R : Finset (Nat × Nat)} {p : CmdWord → Prop} [DecidablePred p]
    (hp : ∀ w, p w ↔ w.toNat ∈ inRanges R) (hR : ∀ r ∈ R, r.2 < 524288) :
    ((Finset.range 524288).filter fun n => p (BitVec.ofNat 19 n)).card = (inRanges R).card := by
  congr 1
  ext n
  rw [Finset.mem_filter, Finset.mem_range, hp, BitVec.toNat_ofNat]
  constructor
  · rintro ⟨hn, hmem⟩
    rwa [Nat.mod_eq_of_lt hn] at hmem
  · intro hmem
    obtain ⟨r, hr, -, hle⟩ := mem_inRanges.mp hmem
    have hn : n < 524288 := hle.trans_lt (hR r hr)
    exact ⟨hn, by rwa [Nat.mod_eq_of_lt hn]⟩

/-- R38's rows, by the numbers of their words. -/
def legalRanges : Finset (Nat × Nat) :=
  {(0x00000, 0x00000), (0x10000, 0x10000), (0x20000, 0x200FF), (0x30000, 0x300FF), (0x40000, 0x4FFFF), (0x60000, 0x60000)}

/-- R41's rows, by the numbers of their words. -/
def Reserved.ranges : Reserved → Finset (Nat × Nat)
  | .initOperand => {(0x00001, 0x0FFFF), (0x10001, 0x1FFFF)}
  | .updateHighByte => {(0x20100, 0x2FFFF), (0x30100, 0x3FFFF)}
  | .loadVariant => {(0x50000, 0x5FFFF)}
  | .readOperand => {(0x60001, 0x6FFFF)}
  | .readVariant => {(0x70000, 0x7FFFF)}

/-- Each row's mask and pattern leave exactly its range. -/
theorem legal_iff_mem_ranges (w : CmdWord) : CmdWord.legal w = true ↔ w.toNat ∈ inRanges legalRanges := by
  rw [legal_iff_row, mem_inRanges]
  simp [commandMap, legalRanges, and_fullMask_eq_iff, and_updateMask_eq_iff, and_loadMask_eq_iff]
  omega

/-- R41's rows, by the fields of their words. -/
def Reserved.Describes (w : CmdWord) : Reserved → Prop
  | .initOperand => w.cls = 0b00#2 ∧ w.arg ≠ 0x0000#16
  | .updateHighByte => w.cls = 0b01#2 ∧ w.argHigh ≠ 0x00#8
  | .loadVariant => w.cls = 0b10#2 ∧ w.var ≠ 0#1
  | .readOperand => w.cls = 0b11#2 ∧ w.var = 0#1 ∧ w.arg ≠ 0x0000#16
  | .readVariant => w.cls = 0b11#2 ∧ w.var ≠ 0#1

section
variable {w : CmdWord} {why : Reserved}

theorem decodeInit_eq_error : decodeInit w = .error why ↔ why = .initOperand ∧ w.arg ≠ 0x0000#16 := by
  unfold decodeInit
  split_ifs <;> simp [*, eq_comm (b := why)]

theorem decodeUpdate_eq_error : decodeUpdate w = .error why ↔ why = .updateHighByte ∧ w.argHigh ≠ 0x00#8 := by
  unfold decodeUpdate
  split_ifs <;> simp [*, eq_comm (b := why)]

theorem decodeLoad_eq_error : decodeLoad w = .error why ↔ why = .loadVariant ∧ w.var ≠ 0#1 := by
  unfold decodeLoad
  split_ifs <;> simp [*, eq_comm (b := why)]

theorem decodeRead_eq_error : decodeRead w = .error why ↔
    (why = .readOperand ∧ w.var = 0#1 ∧ w.arg ≠ 0x0000#16) ∨ (why = .readVariant ∧ w.var ≠ 0#1) := by
  unfold decodeRead
  split_ifs <;> simp [*, eq_comm (b := why)]

/-- Each class has its own reasons, so the class and the reason's field condition say all. -/
theorem decode_eq_error_iff_describes : decode w = .error why ↔ why.Describes w := by
  unfold decode
  split_ifs with hinit hupd hload
  · rw [decodeInit_eq_error]
    cases why <;> simp [Reserved.Describes, hinit]
  · rw [decodeUpdate_eq_error]
    cases why <;> simp [Reserved.Describes, hupd]
  · rw [decodeLoad_eq_error]
    cases why <;> simp [Reserved.Describes, hload]
  · rw [decodeRead_eq_error]
    cases why <;> simp [Reserved.Describes, cls_eq_read hinit hupd hload]

/-- R41: the decoder's reason is the set whose ranges hold the word. -/
theorem decode_eq_error_iff {w : CmdWord} {why : Reserved} : decode w = .error why ↔ w.toNat ∈ inRanges why.ranges := by
  have hw := w.isLt
  rw [decode_eq_error_iff_describes, mem_inRanges]
  cases why <;>
    simp [Reserved.Describes, Reserved.ranges, ← BitVec.toNat_inj, cls_toNat, var_toNat, arg_toNat, argHigh_toNat] <;>
    omega

end

/-- As many words are rejected for a reason as its ranges hold. -/
theorem reservedCount_eq_card (why : Reserved) : Machine.reservedCount why = (inRanges why.ranges).card := by
  have hR : ∀ r ∈ why.ranges, r.2 < 524288 := by cases why <;> decide
  rw [← card_words_inRanges (p := fun w => decode w = .error why) (fun w => decode_eq_error_iff) hR,
    ← Nat.count_eq_card_filter_range, Nat.count, List.countP_eq_length_filter, Machine.reservedCount]
  congr 2
  funext n
  cases decode (BitVec.ofNat 19 n) with
  | ok i => simp
  | error e => simp [beq_eq_decide]

theorem reservedCount_eq_sum (why : Reserved) : Machine.reservedCount why = ∑ r ∈ why.ranges, (r.2 + 1 - r.1) := by
  rw [reservedCount_eq_card, card_inRanges]
  cases why <;> decide

theorem card_legal : ((Finset.range 524288).filter fun n => CmdWord.legal (BitVec.ofNat 19 n) = true).card = 66051 := by
  rw [card_words_inRanges (p := fun w => CmdWord.legal w = true) legal_iff_mem_ranges (by decide), card_inRanges (by decide)]
  decide

/-- Settles O2: each row by the number of its command, rejection by legality, and the count by the rows' ranges. -/
theorem decodeFollowsCommandMap : Obligations.DecodeFollowsCommandMap := by
  refine ⟨fun w => ⟨decode_crc16Init_iff w, decode_xmodemInit_iff w, decode_crc16Update_iff w, decode_xmodemUpdate_iff w,
    decode_load_iff w, decode_read_iff w, ?_⟩, rows_disjoint, card_legal⟩
  rw [← not_legal_iff_decode, ← Bool.not_eq_true, legal_iff_row]
  push Not
  rfl

/-- Settles O3: the decoder's reasons are ranges of words, and the ranges are as long as R41 says. -/
theorem reservedWordsAreTheFiveSets : Obligations.ReservedWordsAreTheFiveSets := by
  refine ⟨fun w => ⟨not_legal_iff_decode, ?_, ?_, ?_, ?_, ?_⟩, reservedCount_eq_sum _, reservedCount_eq_sum _,
    reservedCount_eq_sum _, reservedCount_eq_sum _, reservedCount_eq_sum _, rfl, rfl⟩
  all_goals simp [decode_eq_error_iff, mem_inRanges, Reserved.ranges]

end Sys2Proof
end

section
/-! Which steps are refused (R42), and what presented events become. -/

namespace Sys2Proof.Machine

/-- Settles O31: the next event is none, or an idle period. -/
theorem idleChangesNothing : Obligations.IdleChangesNothing :=
  ⟨fun _ => step_of_empty, fun _ _ => step_of_event⟩

/-- A table word is presented as the host's next event. -/
theorem withFetchWord_of_tableWord {nbits w : Nat} {v : CmdWord} (h : tableWord nbits w = some v) (s : State) :
    s.withFetchWord nbits w = s.present [.command v] := by
  simp [State.withFetchWord, presentTableWord, h]

/-- Settles O34: the placed word is the next command, and taking it leaves the state it was placed in. -/
theorem tableWordRunsNext : Obligations.TableWordRunsNext := by
  intro s nbits w i h
  obtain ⟨v, hv, hi⟩ := decodeTableWord_eq_some.mp h
  rw [withFetchWord_of_tableWord hv]
  exact step_of_command (State.present_pending s _) hi

theorem step_of_reserved {s : State} {w : CmdWord} {rest : List HostEvent} {why : Reserved}
    (hw : s.pending = .command w :: rest) (hwhy : decode w = .error why) : step s = .refused (.reservedWord why) := by
  rw [step_of_event hw, applyEvent_command, issueWord_error hwhy]

/-- A refused event is a command word the decoder rejects, and nothing else. -/
theorem applyEvent_eq_refused {e : HostEvent} {s : State} {r : Refusal} (h : applyEvent e s = .refused r) :
    ∃ w why, e = .command w ∧ decode w = .error why ∧ r = .reservedWord why := by
  cases e with
  | idle | reset => cases h
  | command w =>
    rw [applyEvent_command] at h
    obtain ⟨i, -, hexec⟩ | ⟨why, hwhy, hrefused⟩ := issueWord_cases w s
    · rw [hexec, exec_eq] at h
      cases h
    · exact ⟨w, why, rfl, hwhy, Host.Outcome.refused.inj (h.symm.trans hrefused)⟩

/-- Settles O30: issuing refuses the words the decoder rejects, and those are the words that are not legal. -/
theorem stepRefusesExactlyReservedWords : Obligations.StepRefusesExactlyReservedWords := by
  constructor
  · intro s w rest hw hlegal
    obtain ⟨why, hwhy⟩ := not_legal_iff_decode.mp hlegal
    exact ⟨why, hwhy, step_of_reserved hw hwhy⟩
  · intro s r h
    cases hp : s.pending with
    | nil =>
      rw [step_of_empty hp] at h
      cases h
    | cons e rest =>
      rw [step_of_event hp] at h
      obtain ⟨w, why, rfl, hwhy, rfl⟩ := applyEvent_eq_refused h
      exact ⟨w, rest, why, rfl, not_legal_iff_decode.mpr ⟨why, hwhy⟩, hwhy, rfl⟩

end Sys2Proof.Machine
end

section
/-! The port (R46): the responses of a cycle, and a run of cycles as the steps of its events. -/

namespace Sys2Proof.Machine

section
variable (w : CmdWord) (valid : Bool) (s : State)

@[simp] theorem portEvent_reset : portEvent ⟨true, valid, w⟩ = .reset := rfl
@[simp] theorem portEvent_command : portEvent ⟨false, true, w⟩ = .command w := rfl
@[simp] theorem portEvent_idle : portEvent ⟨false, false, w⟩ = .idle := rfl

end

theorem portEvent_ne_reset {c : PortIn} (hrst : c.rst = false) : portEvent c ≠ .reset := by
  obtain ⟨rst, valid, w⟩ := c
  subst hrst
  cases valid <;> simp

@[simp] theorem portOut_cmdReady (i : PortIn) (s : State) : (portOut i s).cmdReady = true := rfl

/-- The response in a cycle that accepts a command is what the command emits. -/
theorem portOut_rspData_of_command {c : PortIn} {w : CmdWord} {i : Instr} (hc : portEvent c = .command w)
    (hi : decode w = .ok i) (s : State) : (portOut c s).rspData = (emitted i s.acc).head? := by
  simp only [portOut, hc, hi]
  cases i <;> rfl

theorem portOut_rspData_of_reset {c : PortIn} (hc : portEvent c = .reset) (s : State) : (portOut c s).rspData = none := by
  simp only [portOut, hc]

theorem portOut_rspData_of_idle {c : PortIn} (hc : portEvent c = .idle) (s : State) : (portOut c s).rspData = none := by
  simp only [portOut, hc]

/-- Settles O51: by the event of the cycle, with `emitted` for the response to a command. -/
theorem portCycleObeysReset : Obligations.PortCycleObeysReset := by
  refine ⟨fun valid w s => ⟨_, rfl, rfl, rfl⟩, fun w i s hi => ?_, fun w s => ⟨_, rfl, rfl, rfl⟩⟩
  refine ⟨_, portOut ⟨false, true, w⟩ s, exec_eq i s, ?_, rfl, ?_, ?_⟩
  · rw [portCycle, portEvent_command, applyEvent_command, issueWord_ok hi, exec_eq, andThen_next]
  · rw [rspValid, portOut_rspData_of_command rfl hi]
    by_cases h : i = .read <;> simp [h, emitted]
  · rintro rfl
    exact portOut_rspData_of_command rfl hi s

/-- The host's plans do not influence an event. -/
theorem applyEvent_present (e : HostEvent) (s : State) (es : List HostEvent) :
    applyEvent e (s.present es) = andThen (applyEvent e s) fun t => .next (t.present es) := by
  cases e with
  | idle | reset => rfl
  | command w =>
    rw [applyEvent_command, applyEvent_command]
    obtain ⟨i, hi, -⟩ | ⟨why, hwhy, -⟩ := issueWord_cases w s
    · rw [issueWord_ok hi, issueWord_ok hi, exec_present]
    · rw [issueWord_error hwhy, issueWord_error hwhy, andThen_refused]

theorem step_present_event (e : HostEvent) (es : List HostEvent) (s : State) :
    step (s.present (e :: es)) = andThen (applyEvent e s) fun t => .next (t.present es) :=
  (step_of_event (State.present_pending s _)).trans (applyEvent_present e s es)

theorem portRun_state_cons (c : PortIn) (cs : List PortIn) (s : State) :
    andThen (portRun (c :: cs) s) (fun p => .next p.1) =
      andThen (applyEvent (portEvent c) s) fun t => andThen (portRun cs t) fun p => .next p.1 := by
  rw [portRun, portCycle, andThen_assoc, andThen_assoc]
  simp only [andThen_next, andThen_assoc]

/-- The steps of the cycles' events end as the cycles do. -/
theorem runSteps_portEvents (cs : List PortIn) (s : State) :
    runSteps cs.length (s.present (cs.map portEvent)) = andThen (portRun cs s) fun p => .next p.1 := by
  induction cs generalizing s with
  | nil => rfl
  | cons c cs ih =>
    rw [portRun_state_cons, List.map_cons, List.length_cons, runSteps, step_present_event, andThen_assoc]
    simp only [andThen_next, ih]

theorem portCycle_eq_next {c : PortIn} {s t : State} {o : PortOut} :
    portCycle c s = .next (t, o) ↔ applyEvent (portEvent c) s = .next t ∧ o = portOut c s := by
  simp only [portCycle, andThen_eq_next, Host.Outcome.next.injEq, Prod.mk.injEq]
  constructor
  · rintro ⟨u, hu, rfl, rfl⟩
    exact ⟨hu, rfl⟩
  · rintro ⟨ht, rfl⟩
    exact ⟨t, ht, rfl, rfl⟩

/-- A completed run of cycles is its first cycle and a completed run of the others. -/
theorem portRun_cons_eq_next {c : PortIn} {cs : List PortIn} {s t : State} {outs : List PortOut}
    (h : portRun (c :: cs) s = .next (t, outs)) :
    ∃ u rest, applyEvent (portEvent c) s = .next u ∧ portRun cs u = .next (t, rest) ∧ outs = portOut c s :: rest := by
  obtain ⟨⟨u, o⟩, hcycle, hrun⟩ := andThen_eq_next.mp h
  obtain ⟨⟨t', rest⟩, hrest, hend⟩ := andThen_eq_next.mp hrun
  obtain ⟨hu, rfl⟩ := portCycle_eq_next.mp hcycle
  obtain ⟨rfl, rfl⟩ := Prod.mk.inj (Host.Outcome.next.inj hend)
  exact ⟨u, rest, hu, hrest, rfl⟩

/-- Without a reset, a cycle's response is what its event appends to RSP. -/
theorem rsp_of_cycle {c : PortIn} {s t : State} (hrst : c.rst = false) (h : applyEvent (portEvent c) s = .next t) :
    t.rsp = s.rsp ++ (portOut c s).rspData.toList := by
  obtain ⟨hidle, rfl⟩ | ⟨hreset, -⟩ | ⟨w, i, hw, hi, hexec⟩ := applyEvent_cases h
  · rw [portOut_rspData_of_idle hidle, Option.toList_none, List.append_nil]
  · exact absurd hreset (portEvent_ne_reset hrst)
  · rw [exec_eq_next.mp hexec, portOut_rspData_of_command hw hi]
    by_cases hread : i = .read <;> simp [hread, emitted]

theorem portRun_length {cs : List PortIn} {s t : State} {outs : List PortOut} (h : portRun cs s = .next (t, outs)) :
    outs.length = cs.length := by
  induction cs generalizing s outs with
  | nil => rw [← (Prod.mk.inj (Host.Outcome.next.inj h)).2]; rfl
  | cons c cs ih =>
    obtain ⟨u, rest, -, hrest, rfl⟩ := portRun_cons_eq_next h
    rw [List.length_cons, ih hrest, List.length_cons]

theorem portRun_ready {cs : List PortIn} {s t : State} {outs : List PortOut} (h : portRun cs s = .next (t, outs)) :
    ∀ o ∈ outs, o.cmdReady = true := by
  induction cs generalizing s outs with
  | nil => rw [← (Prod.mk.inj (Host.Outcome.next.inj h)).2]; simp
  | cons c cs ih =>
    obtain ⟨u, rest, -, hrest, rfl⟩ := portRun_cons_eq_next h
    exact List.forall_mem_cons.mpr ⟨portOut_cmdReady c s, ih hrest⟩

theorem portRun_rsp {cs : List PortIn} {s t : State} {outs : List PortOut} (h : portRun cs s = .next (t, outs))
    (hrst : ∀ c ∈ cs, c.rst = false) : t.rsp = s.rsp ++ outs.filterMap (·.rspData) := by
  induction cs generalizing s outs with
  | nil =>
    obtain ⟨rfl, rfl⟩ := Prod.mk.inj (Host.Outcome.next.inj h)
    exact (List.append_nil _).symm
  | cons c cs ih =>
    obtain ⟨u, rest, hu, hrest, rfl⟩ := portRun_cons_eq_next h
    obtain ⟨hc, hcs⟩ := List.forall_mem_cons.mp hrst
    rw [ih hrest hcs, rsp_of_cycle hc hu, List.append_assoc, List.filterMap_cons]
    cases (portOut c s).rspData <;> rfl

/-- Settles O52: each clause by its own induction on the cycles. -/
theorem portRunRefinesSteps : Obligations.PortRunRefinesSteps :=
  fun cs s => ⟨runSteps_portEvents cs s, fun _ _ h => ⟨portRun_length h, portRun_ready h, portRun_rsp h⟩⟩

end Sys2Proof.Machine
end

section
/-! The expansions of the pseudo-instructions, and their strings (R45). -/

namespace Sys2Proof.Machine

@[simp] theorem imm8InRange_toNat (d : Byte) : imm8InRange d.toNat = true := decide_eq_true (by omega)

@[simp] theorem imm16InRange_toNat (v : Word) : imm16InRange v.toNat = true := decide_eq_true (by omega)

@[simp] theorem all_imm8InRange_toNat (bs : List Byte) : (bs.map BitVec.toNat).all imm8InRange = true := by
  simp [List.all_map]

@[simp] theorem map_ofNat_toNat (bs : List Byte) : (bs.map BitVec.toNat).map (BitVec.ofNat 8) = bs := by
  simp [Function.comp_def]

theorem assemble_of_wellFormed {c : SourceCommand} (h : c.wellFormed = true) : assemble c = .ok (expand c) := if_pos h

theorem assemble_of_not_wellFormed {c : SourceCommand} (h : c.wellFormed = false) : assemble c = .error .outOfRange :=
  if_neg (Bool.not_eq_true _ ▸ h)

/-- A string is read up to its closing quote, each character as its code. -/
theorem readString_append_quote {cs : List Char} (h : ∀ c ∈ cs, c.toNat < 128 ∧ c ≠ '"') :
    readString (cs ++ ['"']) = some (cs.map Char.toNat) := by
  induction cs with
  | nil => rfl
  | cons c cs ih =>
    obtain ⟨⟨hascii, hquote⟩, hcs⟩ := List.forall_mem_cons.mp h
    rw [List.cons_append, readString, if_neg hquote, if_pos hascii, ih hcs]
    rfl

/-- Settles O53: operands read off bit vectors are in range, so each line assembles to its expansion. -/
theorem pseudoInstructionsExpand : Obligations.PseudoInstructionsExpand := by
  refine ⟨fun v d => ⟨?_, ?_, ?_⟩, fun bs => ⟨?_, ?_, ?_, ?_⟩, fun cs => readString_append_quote⟩
  all_goals
    rw [assemble_of_wellFormed (by simp [SourceCommand.wellFormed])]
    simp [expand, callCmds, checksumCmds, updateCmds, updateCmd, initOf]

end Sys2Proof.Machine
end

section
/-! The text of a command is read back as the command (R44). -/

namespace Sys2Proof.Machine

/-- A character that opens no quotes and no comment. -/
def plain (c : Char) : Bool := c != '\'' && c != '"' && c != ';'

/-- Plain characters stand in front of a comment unchanged. -/
theorem stripComment_plain_append {cs : List Char} (h : ∀ c ∈ cs, plain c = true) (rest : List Char) :
    stripComment false (cs ++ rest) = cs ++ stripComment false rest := by
  induction cs with
  | nil => rfl
  | cons c cs ih =>
    obtain ⟨hc, hcs⟩ := List.forall_mem_cons.mp h
    simp only [plain, Bool.and_eq_true, bne_iff_ne] at hc
    obtain ⟨⟨hsingle, hdouble⟩, hsemi⟩ := hc
    rw [List.cons_append, stripComment, ih hcs, List.cons_append]
    · exact fun _ _ heq _ => hsingle heq
    · exact hdouble
    · exact hsemi

theorem hexValue_hexDigit {n : Nat} (h : n < 16) : hexValue (hexDigit n) = some n := by
  decide +revert

theorem plain_hexDigit {n : Nat} (h : n < 16) : plain (hexDigit n) = true := by
  decide +revert

/-- One digit read. -/
theorem readHex_hexDigit {n : Nat} (h : n < 16) (k a : Nat) (cs : List Char) :
    readHex (k + 1) a (hexDigit n :: cs) = readHex k (16 * a + n) cs := by
  simp only [readHex, hexValue_hexDigit h]

theorem readImm8_byteText (d : Byte) (t : List Char) : readImm8 (byteText d ++ t) = some (d.toNat, t) := by
  have hd := d.isLt
  simp only [byteText, List.cons_append, List.nil_append, readImm8]
  rw [readHex_hexDigit (by omega), readHex_hexDigit (by omega), readHex]
  congr 2
  omega

theorem readImm16_wordText (v : Word) (t : List Char) : readImm16 (wordText v ++ t) = some (v.toNat, t) := by
  have hv := v.isLt
  simp only [wordText, List.cons_append, List.nil_append, readImm16]
  rw [readHex_hexDigit (by omega), readHex_hexDigit (by omega), readHex_hexDigit (by omega), readHex_hexDigit (by omega), readHex]
  congr 2
  omega

/-- The mnemonic of a command. -/
def nameText : Instr → List Char
  | .crc16Init => textCrc16Init
  | .xmodemInit => textXmodemInit
  | .crc16Update _ => textCrc16Update
  | .xmodemUpdate _ => textXmodemUpdate
  | .load _ => textLoad
  | .read => textRead

/-- What follows the mnemonic in the text of a command. -/
def operandText : Instr → List Char
  | .crc16Update d | .xmodemUpdate d => ' ' :: byteText d
  | .load v => ' ' :: wordText v
  | .crc16Init | .xmodemInit | .read => []

/-- The source line a command's text is parsed to. -/
def sourceOf : Instr → SourceCommand
  | .crc16Init => .crc16Init
  | .xmodemInit => .xmodemInit
  | .crc16Update d => .crc16Update d.toNat
  | .xmodemUpdate d => .xmodemUpdate d.toNat
  | .load v => .load v.toNat
  | .read => .read

theorem commandText_eq (i : Instr) : commandText i = nameText i ++ operandText i := by
  cases i <;> rfl

theorem assemble_sourceOf (i : Instr) : assemble (sourceOf i) = .ok [i] := by
  rw [assemble_of_wellFormed (by cases i <;> simp [sourceOf, SourceCommand.wellFormed])]
  cases i <;> simp [sourceOf, expand]

theorem nameText_ne_nil (i : Instr) : nameText i ≠ [] := by
  cases i <;> exact List.cons_ne_nil _ _

theorem nameText_chars (i : Instr) : ∀ c ∈ nameText i, plain c = true ∧ c ≠ ' ' := by
  have hall : (nameText i).all (fun c => plain c && c != ' ') = true := by cases i <;> rfl
  simpa using hall

theorem byteText_plain (d : Byte) : ∀ c ∈ byteText d, plain c = true := by
  have hd := d.isLt
  simp only [byteText, List.forall_mem_cons]
  exact ⟨by decide, by decide, plain_hexDigit (by omega), plain_hexDigit (by omega), List.forall_mem_nil _⟩

theorem wordText_plain (v : Word) : ∀ c ∈ wordText v, plain c = true := by
  have hv := v.isLt
  simp only [wordText, List.forall_mem_cons]
  exact ⟨by decide, by decide, plain_hexDigit (by omega), plain_hexDigit (by omega), plain_hexDigit (by omega),
    plain_hexDigit (by omega), List.forall_mem_nil _⟩

theorem operandText_plain (i : Instr) : ∀ c ∈ operandText i, plain c = true := by
  cases i with
  | crc16Init | xmodemInit | read => exact List.forall_mem_nil _
  | crc16Update d | xmodemUpdate d => exact List.forall_mem_cons.mpr ⟨by decide, byteText_plain d⟩
  | load v => exact List.forall_mem_cons.mpr ⟨by decide, wordText_plain v⟩

theorem commandText_plain (i : Instr) : ∀ c ∈ commandText i, plain c = true := by
  rw [commandText_eq]
  exact List.forall_mem_append.mpr ⟨fun c hc => (nameText_chars i c hc).1, operandText_plain i⟩

section
variable {t : List Char} (ht : skipSpaces t = [])
include ht

theorem withNone_of_spaces (c : SourceCommand) : withNone c t = .ok c := by
  simp [withNone, ended, ht]

theorem withOne_of_spaces {r : List Char → Option (Nat × List Char)} {mk : Nat → SourceCommand} {cs : List Char} {n : Nat}
    (hr : r cs = some (n, t)) : withOne r mk cs = .ok (mk n) := by
  simp [withOne, hr, ended, ht]

theorem parseNamed_commandText (i : Instr) :
    parseNamed (nameText i) (skipSpaces (operandText i ++ t)) = .ok (sourceOf i) := by
  have hnil : skipSpaces ([] ++ t) = [] := ht
  cases i with
  | crc16Init | xmodemInit | read => rw [operandText, hnil]; rfl
  | crc16Update d | xmodemUpdate d => exact withOne_of_spaces ht (readImm8_byteText d t)
  | load v => exact withOne_of_spaces ht (readImm16_wordText v t)

theorem takeWhile_spaces : t.takeWhile (· != ' ') = [] := by
  cases t with
  | nil => rfl
  | cons c t =>
    have hspace : c = ' ' := by simpa using List.dropWhile_eq_nil_iff.mp ht c List.mem_cons_self
    rw [hspace]
    rfl

/-- The mnemonic ends where the operand begins. -/
theorem takeWhile_operandText (i : Instr) : (operandText i ++ t).takeWhile (· != ' ') = [] := by
  cases i with
  | crc16Init | xmodemInit | read => exact takeWhile_spaces ht
  | crc16Update d | xmodemUpdate d | load v => rfl

end

/-- What the parser does with a line once its comment is gone: the mnemonic is what stands before the first space. -/
theorem parseLine_of_strip {line name rest : List Char} {c : SourceCommand} (hstrip : stripComment false line = name ++ rest)
    (hne : name ≠ []) (hname : ∀ c ∈ name, c ≠ ' ') (hrest : rest.takeWhile (· != ' ') = [])
    (hc : parseNamed name (skipSpaces rest) = .ok c) : parseLine line = .ok (some c) := by
  have htext : skipSpaces (name ++ rest) = name ++ rest := by
    cases name with
    | nil => exact absurd rfl hne
    | cons a as => simp [skipSpaces, hname a]
  have htake : (name ++ rest).takeWhile (· != ' ') = name := by
    rw [List.takeWhile_append_of_pos (by simpa using hname), hrest, List.append_nil]
  simp [parseLine, hstrip, htext, htake, hne, hc]

/-- A line that is a command's text and spaces, once its comment is gone, assembles to the command. -/
theorem assembleLine_of_strip {line t : List Char} {i : Instr} (hstrip : stripComment false line = commandText i ++ t)
    (ht : skipSpaces t = []) : assembleLine line = .ok [i] := by
  rw [commandText_eq, List.append_assoc] at hstrip
  have hparse := parseLine_of_strip hstrip (nameText_ne_nil i) (fun c hc => (nameText_chars i c hc).2) (takeWhile_operandText ht i)
    (parseNamed_commandText ht i)
  rw [assembleLine, hparse]
  exact assemble_sourceOf i

/-- Settles O54: a command's text is plain, so only the comment after it is taken away. -/
theorem commandTextAssembles : Obligations.CommandTextAssembles := by
  refine ⟨fun i comment => ⟨?_, ?_⟩, fun n hn => ⟨?_, ?_⟩, fun n hn => ?_⟩
  · refine assembleLine_of_strip (t := []) ?_ rfl
    simpa [stripComment] using stripComment_plain_append (commandText_plain i) []
  · exact assembleLine_of_strip (t := [' ']) (stripComment_plain_append (commandText_plain i) _) rfl
  all_goals exact assemble_of_not_wellFormed (decide_eq_false (Nat.not_le.mpr hn))

end Sys2Proof.Machine
end

section
/-! The bytes of a word, and how the fold takes a list apart. -/

namespace Sys2Proof.Machine

theorem zext16_eq_setWidth (d : Byte) : zext16 d = d.setWidth 16 :=
  (BitVec.setWidth_eq_append (by decide)).symm

theorem zext16_xor (d d' : Byte) : zext16 (d ^^^ d') = zext16 d ^^^ zext16 d' := by
  simp only [zext16_eq_setWidth, BitVec.setWidth_xor]

/-- R11: a word is its two halves, each in its place. -/
theorem byteHigh_xor_zext16 (c : Word) : byteHigh (highByte c) ^^^ zext16 (lowByte c) = c := by
  calc byteHigh (highByte c) ^^^ zext16 (lowByte c)
    _ = (highByte c ^^^ 0x00#8) ++ (0x00#8 ^^^ lowByte c) := BitVec.xor_append
    _ = highByte c ++ lowByte c := by rw [BitVec.xor_zero, BitVec.zero_xor]
    _ = c.extractLsb' 0 16 := BitVec.extractLsb'_append_extractLsb'_eq_extractLsb' rfl
    _ = c := BitVec.extractLsb'_eq_self

@[simp] theorem lowByte_zext16 (d : Byte) : lowByte (zext16 d) = d := BitVec.extractLsb'_append_eq_right

@[simp] theorem highByte_zext16 (d : Byte) : highByte (zext16 d) = 0x00#8 := BitVec.extractLsb'_append_eq_left

/-- R74: a message is folded part after part. -/
theorem fold_append (V : Variant) (c : Word) (as bs : List Byte) : fold V c (as ++ bs) = fold V (fold V c as) bs := by
  induction as generalizing c with
  | nil => rfl
  | cons a as ih => exact ih _

end Sys2Proof.Machine
end

section
/-! What follows for every function on words that is linear over exclusive-or, as both variants' steps are (R54, R64). -/

namespace Sys2Proof.Machine

/-- The bits of a word from bit `i` up. -/
theorem bitsFrom_bit (x : Word) (i : Nat) {j : Nat} (hj : j < 16) :
    (x >>> i <<< i).getLsbD j = (decide (i ≤ j) && x.getLsbD j) := by
  rw [BitVec.getLsbD_shiftLeft, BitVec.getLsbD_ushiftRight, decide_eq_true hj, Bool.true_and, ← decide_not]
  by_cases hij : i ≤ j
  · rw [Nat.add_sub_cancel' hij, decide_eq_true hij, decide_eq_true (Nat.not_lt.mpr hij)]
  · rw [decide_eq_false hij, decide_eq_false (not_not_intro (Nat.lt_of_not_le hij)), Bool.false_and, Bool.false_and]

/-- They are bit `i` and the bits above it. -/
theorem bitsFrom_eq (x : Word) {i : Nat} (hi : i < 16) :
    x >>> i <<< i = (if x.getLsbD i then 1#16 <<< i else 0#16) ^^^ x >>> (i + 1) <<< (i + 1) := by
  have hbit (j : Nat) : (if x.getLsbD i then 1#16 <<< i else 0#16).getLsbD j = (x.getLsbD i && decide (i = j)) := by
    cases x.getLsbD i
    · rw [if_neg Bool.false_ne_true, BitVec.getLsbD_zero, Bool.false_and]
    · rw [if_pos rfl, ← BitVec.twoPow_eq, BitVec.getLsbD_twoPow, decide_eq_true hi]
  refine BitVec.eq_of_getLsbD_eq fun j hj => ?_
  rw [BitVec.getLsbD_xor, bitsFrom_bit x i hj, bitsFrom_bit x (i + 1) hj, hbit]
  by_cases hij : i = j
  · simp [hij]
  · have hle : i ≤ j ↔ i + 1 ≤ j := by omega
    simp [hij, hle]

section
variable {f : Word → Word} (hf : ∀ a b, f (a ^^^ b) = f a ^^^ f b)
include hf

theorem iter_xor (n : Nat) (a b : Word) : iter f n (a ^^^ b) = iter f n a ^^^ iter f n b := by
  induction n with
  | zero => rfl
  | succ n ih => rw [iter_succ, ih, hf, iter_succ, iter_succ]

theorem map_zero_of_xor : f 0#16 = 0#16 := by
  calc f 0#16
    _ = f 0#16 ^^^ f 0#16 := hf 0#16 0#16
    _ = 0#16 := BitVec.xor_self

/-- The network of the images of the single bits computes the linear function: here its part for the bits from bit `i` up. -/
theorem xorOfSetBits_images (n i : Nat) (hi : i + n = 16) (x : Word) :
    xorOfSetBits ((List.range' i n).map fun j => f (1#16 <<< j)) i x = f (x >>> i <<< i) := by
  induction n generalizing i with
  | zero =>
    rw [BitVec.ushiftRight_eq_zero (n := i) hi.ge, BitVec.zero_shiftLeft, map_zero_of_xor hf]
    rfl
  | succ n ih =>
    rw [List.range'_succ, List.map_cons, xorOfSetBits, ih (i + 1) (by omega), bitsFrom_eq x (i := i) (by omega), hf]
    split
    · rfl
    · rw [map_zero_of_xor hf]; rfl

end

end Sys2Proof.Machine
end

section
/-! The reflected step: its arms, its linearity, its inverse, and that it only shifts while the bits it tests are 0. -/

namespace Sys2Proof.Machine

theorem reflStep_of_test {c : Word} (h : c.getLsbD 0 = true) (P : Word) : reflStep P c = (c >>> 1) ^^^ P := if_pos h

theorem reflStep_of_not_test {c : Word} (h : c.getLsbD 0 = false) (P : Word) : reflStep P c = c >>> 1 := by
  rw [reflStep, h, if_neg Bool.false_ne_true]

/-- Settles O5: the arms are the step's own, and both together give each bit. -/
theorem reflectedStepShiftsRightAndTests : Obligations.ReflectedStepShiftsRightAndTests :=
  fun P c => ⟨(reflStep_of_test · P), (reflStep_of_not_test · P), fun j _ => reflStep_bit P c j⟩

theorem reflStep_xor (P a b : Word) : reflStep P (a ^^^ b) = reflStep P a ^^^ reflStep P b := by
  refine BitVec.eq_of_getLsbD_eq fun j _ => ?_
  rw [BitVec.getLsbD_xor, reflStep_bit, reflStep_bit, reflStep_bit, BitVec.getLsbD_xor, BitVec.getLsbD_xor,
    Bool.and_xor_distrib_right]
  simp only [Bool.xor_assoc, Bool.xor_left_comm]

/-- While the bits that come to the test are 0, the steps only shift (R53's reason). -/
theorem iter_reflStep_of_lowBits_zero (P : Word) {x : Word} (n : Nat) (h : ∀ j, j < n → x.getLsbD j = false) :
    iter (reflStep P) n x = x >>> n := by
  induction n with
  | zero => exact (BitVec.ushiftRight_zero x).symm
  | succ n ih =>
    have htest : (x >>> n).getLsbD 0 = false := by
      rw [BitVec.getLsbD_ushiftRight]
      exact h n n.lt_succ_self
    rw [iter_succ, ih fun j hj => h j (hj.trans n.lt_succ_self), reflStep_of_not_test htest, BitVec.shiftRight_add]

/-- R55: the tested bit is bit 15 of the result, and it says whether the polynomial is to be taken back from the other bits. -/
theorem reflStep_undo {P : Word} (hP : P.getLsbD 15 = true) (c : Word) :
    ((reflStep P c).extractLsb' 0 15 ^^^ (if (reflStep P c).getLsbD 15 then P.extractLsb' 0 15 else 0#15)) ++
      (reflStep P c).extractLsb' 15 1 = c := by
  have htest : (reflStep P c).getLsbD 15 = c.getLsbD 0 := by
    rw [reflStep_bit, hP, BitVec.getLsbD_of_ge c (15 + 1) le_rfl, Bool.false_xor, Bool.and_true]
  have hpoly {j : Nat} (hj : j < 15) :
      (if c.getLsbD 0 then P.extractLsb' 0 15 else 0#15).getLsbD j = (c.getLsbD 0 && P.getLsbD j) := by
    cases c.getLsbD 0 <;> simp [hj]
  refine BitVec.eq_of_getLsbD_eq fun j hj => ?_
  rw [BitVec.getLsbD_append, htest]
  cases j with
  | zero => simpa using htest
  | succ j =>
    have hlow : j < 15 := Nat.lt_of_succ_lt_succ hj
    rw [if_neg (Nat.not_lt.mpr j.succ_pos), Nat.add_sub_cancel, BitVec.getLsbD_xor, BitVec.getLsbD_extractLsb', hpoly hlow,
      decide_eq_true hlow, Bool.true_and, Nat.zero_add, reflStep_bit, Bool.xor_assoc, Bool.xor_self, Bool.xor_false]

end Sys2Proof.Machine
end

section
/-! The reflected update (R49, R50): linear, and its high byte passes through untested. -/

namespace Sys2Proof.Machine

/-- Settles O6: the eight iterations written out. -/
theorem reflectedUpdateIsEightSteps : Obligations.ReflectedUpdateIsEightSteps := by
  refine ⟨fun P c d => ?_, fun _ _ => rfl, by decide, by decide⟩
  rw [← zext16_eq_setWidth]
  rfl

theorem crc16Update_zeroByte (c : Word) : crc16Update c 0x00#8 = iter (reflStep Config.polyRefl) 8 c :=
  congrArg (iter (reflStep Config.polyRefl) 8) BitVec.xor_zero

/-- R56 (a). -/
theorem crc16Update_eq_xor (c : Word) (d : Byte) : crc16Update c d = crc16Update (c ^^^ zext16 d) 0x00#8 :=
  (crc16Update_zeroByte _).symm

theorem crc16Update_xor (c c' : Word) (d d' : Byte) :
    crc16Update (c ^^^ c') (d ^^^ d') = crc16Update c d ^^^ crc16Update c' d' := by
  have hplace : (c ^^^ c') ^^^ zext16 (d ^^^ d') = (c ^^^ zext16 d) ^^^ (c' ^^^ zext16 d') := by
    rw [zext16_xor]
    ac_rfl
  exact (congrArg _ hplace).trans (iter_xor (reflStep_xor _) _ _ _)

theorem crc16Update_xor_zeroByte (a b : Word) :
    crc16Update (a ^^^ b) 0x00#8 = crc16Update a 0x00#8 ^^^ crc16Update b 0x00#8 :=
  crc16Update_xor a b 0x00#8 0x00#8

/-- In eight shifts the high byte moves into the low half, never tested. -/
theorem crc16Update_byteHigh (h : Byte) : crc16Update (byteHigh h) 0x00#8 = zext16 h := by
  have hlow : ∀ j, j < 8 → (byteHigh h).getLsbD j = false := by
    intro j hj
    rw [byteHigh_bit, decide_eq_false (Nat.not_le.mpr hj), Bool.false_and]
  calc crc16Update (byteHigh h) 0x00#8
    _ = iter (reflStep Config.polyRefl) 8 (byteHigh h) := crc16Update_zeroByte _
    _ = byteHigh h >>> 8 := iter_reflStep_of_lowBits_zero _ 8 hlow
    _ = zext16 h := by
      refine BitVec.eq_of_getLsbD_eq fun j _ => ?_
      rw [BitVec.getLsbD_ushiftRight, byteHigh_bit, zext16_bit, decide_eq_true (Nat.le_add_right 8 j), Bool.true_and,
        Nat.add_sub_cancel_left]

/-- R53: the high byte moves down, and the tests see only `c[7:0] ^ d`. -/
theorem crc16Update_eq_high_xor_low (c : Word) (d : Byte) :
    crc16Update c d = zext16 (highByte c) ^^^ crc16Update 0x0000#16 (lowByte c ^^^ d) := by
  calc crc16Update c d
    _ = crc16Update (c ^^^ zext16 d) 0x00#8 := crc16Update_eq_xor c d
    _ = crc16Update (byteHigh (highByte c) ^^^ zext16 (lowByte c ^^^ d)) 0x00#8 := by
      rw [zext16_xor, ← BitVec.xor_assoc, byteHigh_xor_zext16]
    _ = crc16Update (byteHigh (highByte c)) 0x00#8 ^^^ crc16Update (zext16 (lowByte c ^^^ d)) 0x00#8 :=
      crc16Update_xor_zeroByte _ _
    _ = zext16 (highByte c) ^^^ crc16Update 0x0000#16 (lowByte c ^^^ d) := by
      rw [crc16Update_byteHigh, crc16Update_eq_xor 0x0000#16, BitVec.zero_xor]

theorem crc16Update_zero : crc16Update 0x0000#16 0x00#8 = 0x0000#16 := by decide

/-- R56 (b). -/
theorem crc16Update_lowByte (c : Word) : crc16Update c (lowByte c) = zext16 (highByte c) := by
  rw [crc16Update_eq_high_xor_low, BitVec.xor_self, crc16Update_zero, BitVec.xor_zero]

/-- R56 (c). -/
theorem crc16Update_lowByte_highByte (c : Word) : crc16Update (crc16Update c (lowByte c)) (highByte c) = 0x0000#16 := by
  have hlow : crc16Update (zext16 (highByte c)) (highByte c) = zext16 0x00#8 := by
    simpa using crc16Update_lowByte (zext16 (highByte c))
  rw [crc16Update_lowByte, hlow]
  rfl

/-- Settles O10: (b) twice gives (c), and (c) ends the fold of a message with its checksum. -/
theorem reflectedByteFolding : Obligations.ReflectedByteFolding := by
  refine ⟨fun c d => ?_, crc16Update_lowByte, crc16Update_lowByte_highByte, fun c bs => ?_⟩
  · rw [← zext16_eq_setWidth]
    exact crc16Update_eq_xor c d
  · rw [fold_append]
    exact crc16Update_lowByte_highByte _

/-- Settles O9: an injective map on a finite type is a bijection. -/
theorem reflectedUpdateIsBijective : Obligations.ReflectedUpdateIsBijective :=
  ⟨fun d => Finite.injective_iff_bijective.mp (crc16Update_injective d), fun c => (reflStep_undo (by decide) c).symm⟩

/-- Settles O19: R51's meaning writes ACC alone, and R53's split says what the result depends on. -/
theorem crc16UpdateFoldsByte : Obligations.Crc16UpdateFoldsByte := by
  refine ⟨fun d s => ⟨rfl, encode_crc16Update d⟩, crc16Update_zero, by decide, by decide, by decide, by decide, by decide,
    fun c c' d d' hhigh hlow => ?_⟩
  rw [crc16Update_eq_high_xor_low c, crc16Update_eq_high_xor_low c', show highByte c = highByte c' from hhigh,
    show lowByte c ^^^ d = lowByte c' ^^^ d' from hlow]

end Sys2Proof.Machine
end

section
/-! A table of an update function: its entries by the bytes in order (R53, R63). -/

namespace Sys2Proof.Machine

/-- The updates of 0x0000 by the `n` bytes from `i` on. -/
def entriesFrom (update : Word → Byte → Word) (i n : Nat) : List Word :=
  (List.range' i n).map fun b => update 0x0000#16 (BitVec.ofNat 8 b)

theorem entriesFrom_append (update : Word → Byte → Word) (i m n : Nat) :
    entriesFrom update i m ++ entriesFrom update (i + m) n = entriesFrom update i (m + n) := by
  rw [entriesFrom, entriesFrom, ← List.map_append, List.range'_append_1, entriesFrom]

theorem entriesFrom_getD (update : Word → Byte → Word) (i : Byte) :
    (entriesFrom update 0 256).getD i.toNat 0 = update 0x0000#16 i := by
  have hi : i.toNat < 256 := i.isLt
  simp [entriesFrom, hi]

end Sys2Proof.Machine
end

section
/-! The two realisations of the reflected update: the table (R53) and the exclusive-or network (R54). -/

namespace Sys2Proof.Machine

/-- The listed entries, four rows at a time. -/
theorem tReflTable_eq : tReflTable = entriesFrom crc16Update 0 256 := by
  have h0 : tReflRows0 = entriesFrom crc16Update 0 64 := by decide
  have h1 : tReflRows1 = entriesFrom crc16Update 64 64 := by decide
  have h2 : tReflRows2 = entriesFrom crc16Update 128 64 := by decide
  have h3 : tReflRows3 = entriesFrom crc16Update 192 64 := by decide
  rw [tReflTable, h0, h1, h2, h3, entriesFrom_append _ 0, entriesFrom_append _ 0, entriesFrom_append _ 0]

theorem tRefl_eq (i : Byte) : tRefl i = crc16Update 0x0000#16 i := by
  rw [tRefl, tReflTable_eq, entriesFrom_getD]

theorem crc16UpdateByTable_eq (c : Word) (d : Byte) : crc16UpdateByTable c d = crc16Update c d := by
  rw [crc16UpdateByTable, tRefl_eq, ← crc16Update_eq_high_xor_low]

/-- Settles O7: the table's entries are the updates of 0x0000, and R53's split does the rest. -/
theorem reflectedTableFormAgrees : Obligations.ReflectedTableFormAgrees :=
  ⟨tRefl_eq, fun c d => (crc16UpdateByTable_eq c d).symm, crc16UpdateByTable_eq⟩

theorem wRefl_eq : wRefl = (List.range 16).map fun i => crc16Update (1#16 <<< i) 0x00#8 := by
  decide

theorem crc16UpdateByNetwork_eq (c : Word) (d : Byte) : crc16UpdateByNetwork c d = crc16Update c d := by
  have himages := xorOfSetBits_images (f := (crc16Update · 0x00#8)) crc16Update_xor_zeroByte 16 0 rfl (c ^^^ zext16 d)
  rw [BitVec.ushiftRight_zero, BitVec.shiftLeft_zero] at himages
  rw [crc16UpdateByNetwork, wRefl_eq, List.range_eq_range', himages, ← crc16Update_eq_xor]

/-- Settles O8: a network of a linear function's images of the single bits computes it. -/
theorem reflectedUpdateIsLinear : Obligations.ReflectedUpdateIsLinear := by
  refine ⟨reflStep_xor, crc16Update_xor, crc16Update_zero, fun i hi => ?_, fun c d => (crc16UpdateByNetwork_eq c d).symm⟩
  simp [wRefl_eq, hi]

end Sys2Proof.Machine
end

section
/-! The non-reflected step: its arms, its linearity, its inverse, and that it only shifts while the bits it tests are 0. -/

namespace Sys2Proof.Machine

theorem nonreflStep_of_test {c : Word} (h : c.getLsbD 15 = true) (P : Word) : nonreflStep P c = (c <<< 1) ^^^ P := if_pos h

theorem nonreflStep_of_not_test {c : Word} (h : c.getLsbD 15 = false) (P : Word) : nonreflStep P c = c <<< 1 := by
  rw [nonreflStep, h, if_neg Bool.false_ne_true]

/-- Settles O11: the arms are the step's own, and both together give each bit. -/
theorem nonreflectedStepShiftsLeftAndTests : Obligations.NonreflectedStepShiftsLeftAndTests :=
  fun P c => ⟨(nonreflStep_of_test · P), (nonreflStep_of_not_test · P), fun _ => nonreflStep_bit P c⟩

theorem nonreflStep_xor (P a b : Word) : nonreflStep P (a ^^^ b) = nonreflStep P a ^^^ nonreflStep P b := by
  refine BitVec.eq_of_getLsbD_eq fun j hj => ?_
  rw [BitVec.getLsbD_xor, nonreflStep_bit P _ hj, nonreflStep_bit P a hj, nonreflStep_bit P b hj, BitVec.getLsbD_xor,
    BitVec.getLsbD_xor, Bool.and_xor_distrib_left, Bool.and_xor_distrib_right]
  simp only [Bool.xor_assoc, Bool.xor_left_comm]

/-- While the bits that come to the test are 0, the steps only shift (R63's reason). -/
theorem iter_nonreflStep_of_highBits_zero (P : Word) {x : Word} (n : Nat) (h : ∀ j, j < n → x.getLsbD (15 - j) = false) :
    iter (nonreflStep P) n x = x <<< n := by
  induction n with
  | zero => exact (BitVec.shiftLeft_zero x).symm
  | succ n ih =>
    have htest : (x <<< n).getLsbD 15 = false := by
      rw [BitVec.getLsbD_shiftLeft, h n n.lt_succ_self, Bool.and_false]
    rw [iter_succ, ih fun j hj => h j (hj.trans n.lt_succ_self), nonreflStep_of_not_test htest, BitVec.shiftLeft_add]

/-- R65: the tested bit is bit 0 of the result, and it says whether the polynomial is to be taken back from the other bits. -/
theorem nonreflStep_undo {P : Word} (hP : P.getLsbD 0 = true) (c : Word) :
    (nonreflStep P c).extractLsb' 0 1 ++
      (nonreflStep P c ^^^ (if (nonreflStep P c).getLsbD 0 then P else 0#16)).extractLsb' 1 15 = c := by
  have htest : (nonreflStep P c).getLsbD 0 = c.getLsbD 15 := by
    rw [nonreflStep_bit P c (by decide), hP, decide_eq_false (Nat.lt_irrefl 0), Bool.false_and, Bool.false_xor, Bool.and_true]
  have hpoly (j : Nat) : (if c.getLsbD 15 then P else 0#16).getLsbD j = (c.getLsbD 15 && P.getLsbD j) := by
    cases c.getLsbD 15 <;> simp
  refine BitVec.eq_of_getLsbD_eq fun j hj => ?_
  rw [BitVec.getLsbD_append, htest]
  rcases Nat.lt_succ_iff_lt_or_eq.mp hj with hlow | rfl
  · rw [if_pos hlow, BitVec.getLsbD_extractLsb', decide_eq_true hlow, Bool.true_and, BitVec.getLsbD_xor, hpoly,
      nonreflStep_bit P c (by omega), Bool.xor_assoc, Bool.xor_self, Bool.xor_false, decide_eq_true (by omega), Bool.true_and,
      Nat.add_sub_cancel_left]
  · simpa using htest

end Sys2Proof.Machine
end

section
/-! The non-reflected update (R59, R60): linear, and its low byte passes through untested. -/

namespace Sys2Proof.Machine

theorem byteHigh_xor (d d' : Byte) : byteHigh (d ^^^ d') = byteHigh d ^^^ byteHigh d' := by
  refine BitVec.eq_of_getLsbD_eq fun j _ => ?_
  simp only [BitVec.getLsbD_xor, byteHigh_bit, Bool.and_xor_distrib_left]

/-- R11: the byte in the high half is the byte in the low half, moved up. -/
theorem zext16_shiftLeft_eight (d : Byte) : zext16 d <<< 8 = byteHigh d := by
  refine BitVec.eq_of_getLsbD_eq fun j hj => ?_
  rw [BitVec.getLsbD_shiftLeft, zext16_bit, byteHigh_bit, decide_eq_true hj, Bool.true_and, ← decide_not]
  simp only [Nat.not_lt]

@[simp] theorem highByte_byteHigh (d : Byte) : highByte (byteHigh d) = d := BitVec.extractLsb'_append_eq_left

@[simp] theorem lowByte_byteHigh (d : Byte) : lowByte (byteHigh d) = 0x00#8 := BitVec.extractLsb'_append_eq_right

/-- Settles O12: the eight iterations written out. -/
theorem nonreflectedUpdateIsEightSteps : Obligations.NonreflectedUpdateIsEightSteps := by
  refine ⟨fun P c d => ?_, fun _ _ => rfl, by decide, by decide⟩
  rw [← zext16_eq_setWidth, zext16_shiftLeft_eight]
  rfl

theorem crcXmodemUpdate_zeroByte (c : Word) : crcXmodemUpdate c 0x00#8 = iter (nonreflStep Config.polyNonrefl) 8 c :=
  congrArg (iter (nonreflStep Config.polyNonrefl) 8) BitVec.xor_zero

/-- R66 (a). -/
theorem crcXmodemUpdate_eq_xor (c : Word) (d : Byte) : crcXmodemUpdate c d = crcXmodemUpdate (c ^^^ byteHigh d) 0x00#8 :=
  (crcXmodemUpdate_zeroByte _).symm

theorem crcXmodemUpdate_xor (c c' : Word) (d d' : Byte) :
    crcXmodemUpdate (c ^^^ c') (d ^^^ d') = crcXmodemUpdate c d ^^^ crcXmodemUpdate c' d' := by
  have hplace : (c ^^^ c') ^^^ byteHigh (d ^^^ d') = (c ^^^ byteHigh d) ^^^ (c' ^^^ byteHigh d') := by
    rw [byteHigh_xor]
    ac_rfl
  exact (congrArg _ hplace).trans (iter_xor (nonreflStep_xor _) _ _ _)

theorem crcXmodemUpdate_xor_zeroByte (a b : Word) :
    crcXmodemUpdate (a ^^^ b) 0x00#8 = crcXmodemUpdate a 0x00#8 ^^^ crcXmodemUpdate b 0x00#8 :=
  crcXmodemUpdate_xor a b 0x00#8 0x00#8

/-- In eight shifts the low byte moves into the high half, never tested. -/
theorem crcXmodemUpdate_zext16 (l : Byte) : crcXmodemUpdate (zext16 l) 0x00#8 = byteHigh l := by
  have hhigh (j : Nat) (hj : j < 8) : (zext16 l).getLsbD (15 - j) = false := by
    rw [zext16_bit, BitVec.getLsbD_of_ge l _ (by omega)]
  calc crcXmodemUpdate (zext16 l) 0x00#8
    _ = iter (nonreflStep Config.polyNonrefl) 8 (zext16 l) := crcXmodemUpdate_zeroByte _
    _ = zext16 l <<< 8 := iter_nonreflStep_of_highBits_zero _ 8 hhigh
    _ = byteHigh l := zext16_shiftLeft_eight l

/-- R63: the low byte moves up, and the tests see only `c[15:8] ^ d`. -/
theorem crcXmodemUpdate_eq_low_xor_high (c : Word) (d : Byte) :
    crcXmodemUpdate c d = byteHigh (lowByte c) ^^^ crcXmodemUpdate 0x0000#16 (highByte c ^^^ d) := by
  have hplace : zext16 (lowByte c) ^^^ byteHigh (highByte c ^^^ d) = c ^^^ byteHigh d := by
    rw [byteHigh_xor, ← BitVec.xor_assoc, BitVec.xor_comm (zext16 _), byteHigh_xor_zext16]
  calc crcXmodemUpdate c d
    _ = crcXmodemUpdate (zext16 (lowByte c) ^^^ byteHigh (highByte c ^^^ d)) 0x00#8 := by
      rw [hplace, ← crcXmodemUpdate_eq_xor]
    _ = crcXmodemUpdate (zext16 (lowByte c)) 0x00#8 ^^^ crcXmodemUpdate (byteHigh (highByte c ^^^ d)) 0x00#8 :=
      crcXmodemUpdate_xor_zeroByte _ _
    _ = byteHigh (lowByte c) ^^^ crcXmodemUpdate 0x0000#16 (highByte c ^^^ d) := by
      rw [crcXmodemUpdate_zext16, crcXmodemUpdate_eq_xor 0x0000#16, BitVec.zero_xor]

theorem crcXmodemUpdate_zero : crcXmodemUpdate 0x0000#16 0x00#8 = 0x0000#16 := by decide

/-- R66 (b). -/
theorem crcXmodemUpdate_highByte (c : Word) : crcXmodemUpdate c (highByte c) = byteHigh (lowByte c) := by
  rw [crcXmodemUpdate_eq_low_xor_high, BitVec.xor_self, crcXmodemUpdate_zero, BitVec.xor_zero]

/-- R66 (c). -/
theorem crcXmodemUpdate_highByte_lowByte (c : Word) :
    crcXmodemUpdate (crcXmodemUpdate c (highByte c)) (lowByte c) = 0x0000#16 := by
  have hhigh : crcXmodemUpdate (byteHigh (lowByte c)) (lowByte c) = byteHigh 0x00#8 := by
    simpa using crcXmodemUpdate_highByte (byteHigh (lowByte c))
  rw [crcXmodemUpdate_highByte, hhigh]
  rfl

/-- Settles O16: (b) twice gives (c), and (c) ends the fold of a message with its checksum. -/
theorem nonreflectedByteFolding : Obligations.NonreflectedByteFolding := by
  refine ⟨crcXmodemUpdate_eq_xor, crcXmodemUpdate_highByte, crcXmodemUpdate_highByte_lowByte, fun c bs => ?_⟩
  rw [fold_append]
  exact crcXmodemUpdate_highByte_lowByte _

/-- Settles O15: an injective map on a finite type is a bijection. -/
theorem nonreflectedUpdateIsBijective : Obligations.NonreflectedUpdateIsBijective :=
  ⟨fun d => Finite.injective_iff_bijective.mp (crcXmodemUpdate_injective d), fun c => (nonreflStep_undo (by decide) c).symm⟩

/-- Settles O20: R61's meaning writes ACC alone, and R63's split says what the result depends on. -/
theorem xmodemUpdateFoldsByte : Obligations.XmodemUpdateFoldsByte := by
  refine ⟨fun d s => ⟨rfl, encode_xmodemUpdate d⟩, crcXmodemUpdate_zero, by decide, by decide, by decide, by decide, by decide,
    fun c c' d d' hlow hhigh => ?_⟩
  rw [crcXmodemUpdate_eq_low_xor_high c, crcXmodemUpdate_eq_low_xor_high c', show lowByte c = lowByte c' from hlow,
    show highByte c ^^^ d = highByte c' ^^^ d' from hhigh]

end Sys2Proof.Machine
end

section
/-! The two realisations of the non-reflected update: the table (R63) and the exclusive-or network (R64). -/

namespace Sys2Proof.Machine

/-- The listed entries, four rows at a time. -/
theorem tXmodemTable_eq : tXmodemTable = entriesFrom crcXmodemUpdate 0 256 := by
  have h0 : tXmodemRows0 = entriesFrom crcXmodemUpdate 0 64 := by decide
  have h1 : tXmodemRows1 = entriesFrom crcXmodemUpdate 64 64 := by decide
  have h2 : tXmodemRows2 = entriesFrom crcXmodemUpdate 128 64 := by decide
  have h3 : tXmodemRows3 = entriesFrom crcXmodemUpdate 192 64 := by decide
  rw [tXmodemTable, h0, h1, h2, h3, entriesFrom_append _ 0, entriesFrom_append _ 0, entriesFrom_append _ 0]

theorem tXmodem_eq (i : Byte) : tXmodem i = crcXmodemUpdate 0x0000#16 i := by
  rw [tXmodem, tXmodemTable_eq, entriesFrom_getD]

theorem crcXmodemUpdateByTable_eq (c : Word) (d : Byte) : crcXmodemUpdateByTable c d = crcXmodemUpdate c d := by
  rw [crcXmodemUpdateByTable, tXmodem_eq, ← crcXmodemUpdate_eq_low_xor_high]

/-- Settles O13: the table's entries are the updates of 0x0000, and R63's split does the rest. -/
theorem nonreflectedTableFormAgrees : Obligations.NonreflectedTableFormAgrees :=
  ⟨tXmodem_eq, fun c d => (crcXmodemUpdateByTable_eq c d).symm, crcXmodemUpdateByTable_eq⟩

theorem wXmodem_eq : wXmodem = (List.range 16).map fun i => crcXmodemUpdate (1#16 <<< i) 0x00#8 := by
  decide

theorem crcXmodemUpdateByNetwork_eq (c : Word) (d : Byte) : crcXmodemUpdateByNetwork c d = crcXmodemUpdate c d := by
  have himages := xorOfSetBits_images (f := (crcXmodemUpdate · 0x00#8)) crcXmodemUpdate_xor_zeroByte 16 0 rfl (c ^^^ byteHigh d)
  rw [BitVec.ushiftRight_zero, BitVec.shiftLeft_zero] at himages
  rw [crcXmodemUpdateByNetwork, wXmodem_eq, List.range_eq_range', himages, ← crcXmodemUpdate_eq_xor]

/-- Settles O14: a network of a linear function's images of the single bits computes it. -/
theorem nonreflectedUpdateIsLinear : Obligations.NonreflectedUpdateIsLinear := by
  refine ⟨nonreflStep_xor, crcXmodemUpdate_xor, crcXmodemUpdate_zero, fun i hi => ?_,
    fun c d => (crcXmodemUpdateByNetwork_eq c d).symm⟩
  simp [wXmodem_eq, hi]

end Sys2Proof.Machine
end

section
/-! What a list of commands does, said once: the ACC it leaves and the values it emits, both read from ACC alone (R17, R32). -/

namespace Sys2Proof.Machine

/-- The ACC a command list leaves on the ACC `c`. -/
def accAfterAll (is : List Instr) (c : Word) : Word := is.foldl (fun c i => accAfter i c) c

/-- The values a command list appends to RSP when ACC is `c`. -/
def emittedAll : List Instr → Word → List Word
  | [], _ => []
  | i :: is, c => emitted i c ++ emittedAll is (accAfter i c)

section
variable (i : Instr) (is js : List Instr) (c : Word)

@[simp] theorem accAfterAll_nil : accAfterAll [] c = c := rfl
@[simp] theorem accAfterAll_cons : accAfterAll (i :: is) c = accAfterAll is (accAfter i c) := rfl
@[simp] theorem emittedAll_nil : emittedAll [] c = [] := rfl
@[simp] theorem emittedAll_cons : emittedAll (i :: is) c = emitted i c ++ emittedAll is (accAfter i c) := rfl

@[simp] theorem accAfterAll_append : accAfterAll (is ++ js) c = accAfterAll js (accAfterAll is c) := List.foldl_append

@[simp] theorem emittedAll_append : emittedAll (is ++ js) c = emittedAll is c ++ emittedAll js (accAfterAll is c) := by
  induction is generalizing c with
  | nil => rfl
  | cons i is ih => simp [ih]

end

/-- R19, R32: every command list completes; it writes ACC, appends to RSP, and touches no other field. -/
theorem runCommands_eq (is : List Instr) (s : State) :
    runCommands is s = .next { s with acc := accAfterAll is s.acc, rsp := s.rsp ++ emittedAll is s.acc } := by
  induction is generalizing s with
  | nil => simp [runCommands]
  | cons i is ih => simp [runCommands, exec_eq, ih]

end Sys2Proof.Machine
end

section
/-! The commands of the streaming wrapper: INIT, LOAD, UPDATE, READ (42_streaming_wrapper.md). -/

namespace Sys2Proof.Machine

section
variable (V : Variant) (v c : Word) (b : Byte)

@[simp] theorem accAfter_read : accAfter .read c = c := rfl
@[simp] theorem accAfter_load : accAfter (.load v) c = v := rfl
@[simp] theorem accAfter_initOf : accAfter (initOf V) c = initValue V := by cases V <;> rfl
@[simp] theorem accAfter_updateCmd : accAfter (updateCmd V b) c = updateOf V c b := by cases V <;> rfl

@[simp] theorem emitted_load : emitted (.load v) c = [] := rfl
@[simp] theorem emitted_initOf : emitted (initOf V) c = [] := by cases V <;> rfl
@[simp] theorem emitted_updateCmd : emitted (updateCmd V b) c = [] := by cases V <;> rfl

/-- R81: UPDATE commands leave their own updaters' results one after the other, whatever their variants. -/
theorem accAfterAll_mixed (l : List (Variant × Byte)) :
    accAfterAll (l.map fun p => updateCmd p.1 p.2) c = l.foldl (fun c p => updateOf p.1 c p.2) c := by
  simp only [accAfterAll, List.foldl_map, accAfter_updateCmd]

theorem emittedAll_mixed (l : List (Variant × Byte)) : emittedAll (l.map fun p => updateCmd p.1 p.2) c = [] := by
  induction l generalizing c with
  | nil => rfl
  | cons p l ih => simp [ih]

/-- R74: the UPDATE commands of a message leave the fold of its bytes. -/
@[simp] theorem accAfterAll_updateCmds (bs : List Byte) : accAfterAll (updateCmds V bs) c = fold V c bs := by
  induction bs generalizing c with
  | nil => rfl
  | cons b bs ih => simpa [updateCmds, fold] using ih (updateOf V c b)

@[simp] theorem emittedAll_updateCmds (bs : List Byte) : emittedAll (updateCmds V bs) c = [] := by
  induction bs generalizing c with
  | nil => rfl
  | cons b bs ih => simpa [updateCmds] using ih (updateOf V c b)

/-- R79: neither the ACC that a checksum's commands leave nor the one value they emit depends on the ACC before. -/
@[simp] theorem accAfterAll_checksumCmds (bs : List Byte) : accAfterAll (checksumCmds V bs) c = checksum V bs := by
  simp [checksumCmds, checksum]

@[simp] theorem emittedAll_checksumCmds (bs : List Byte) : emittedAll (checksumCmds V bs) c = [checksum V bs] := by
  simp [checksumCmds, checksum]

end

theorem runCommands_checksumCmds (V : Variant) (bs : List Byte) (s : State) :
    runCommands (checksumCmds V bs) s = .next { s with acc := checksum V bs, rsp := s.rsp ++ [checksum V bs] } := by
  rw [runCommands_eq, accAfterAll_checksumCmds, emittedAll_checksumCmds]

/-- A command that sets ACC to a fixed value has no further effect when it is repeated at once. -/
theorem runCommands_setter_twice {i : Instr} {v : Word} (hi : ∀ s, exec i s = .next (s.setAcc v)) (s : State) :
    runCommands [i, i] s = exec i s := by
  simp [runCommands, hi]

end Sys2Proof.Machine
end

section
/-! The obligations of the streaming wrapper (42_streaming_wrapper.md). -/

namespace Sys2Proof.Machine

/-- Settles O38: the presented list is that of the checksum, and its steps are its run. -/
theorem checksumCommandsReturnChecksum : Obligations.ChecksumCommandsReturnChecksum := by
  intro V bs s
  have hlength : (checksumCmds V bs).length = bs.length + 2 := by simp [checksumCmds, updateCmds]
  calc runSteps (bs.length + 2) (s.present (eventsOf (checksumCmds V bs)))
    _ = runCommands (checksumCmds V bs) s := by rw [← hlength, runSteps_present]
    _ = .next { s with acc := checksum V bs, rsp := s.rsp ++ [checksum V bs] } := runCommands_checksumCmds V bs s

/-- Settles O39: the three steps are the run of the three commands. -/
theorem callCommandsReturnUpdate : Obligations.CallCommandsReturnUpdate := by
  intro V a b s
  calc runSteps 3 (s.present (eventsOf (callCmds V a b)))
    _ = runCommands (callCmds V a b) s := runSteps_present (callCmds V a b) s
    _ = .next { s with acc := updateOf V a b, rsp := s.rsp ++ [updateOf V a b] } := by simp [callCmds, runCommands_eq]

/-- Settles O41: `fold_append` composes the chunks, and the LOAD puts back the value that the READ returned. -/
theorem chunkedMessagesCompose : Obligations.ChunkedMessagesCompose := by
  refine ⟨fold_append, fun V => fold_append V (initValue V), fun V c S1 S2 s => ?_, fun V c S1 S2 js s => ?_⟩
  · simp [runCommands_eq, fold_append]
  · exact ⟨emittedAll js (fold V c S1), by simp [runCommands_eq, fold_append]⟩

/-- Settles O43: the mixed list by its own fold, the rule's example by its two updates. -/
theorem mixedVariantsAreComputed : Obligations.MixedVariantsAreComputed := by
  refine ⟨fun l s => ?_, fun s => ?_⟩
  · rw [runCommands_eq, accAfterAll_mixed, emittedAll_mixed, List.append_nil]
  · have hrefl : crc16Update Config.initRefl 0x31#8 = 0x947E#16 := by decide
    have hxmodem : crcXmodemUpdate 0x947E#16 0x32#8 = 0xAB2C#16 := by decide
    simp [runCommands_eq, accAfter, emitted, hrefl, hxmodem]

/-- Every message emits its own checksum, whatever the one before it left in ACC. -/
theorem emittedAll_messages (msgs : List (Variant × List Byte)) (c : Word) :
    emittedAll (msgs.flatMap fun m => checksumCmds m.1 m.2) c = msgs.map fun m => checksum m.1 m.2 := by
  induction msgs generalizing c with
  | nil => rfl
  | cons m msgs ih => simp [ih]

/-- Settles O45: the run completes with what the messages emit. -/
theorem eachMessageReturnsItsChecksum : Obligations.EachMessageReturnsItsChecksum :=
  fun msgs s => ⟨_, runCommands_eq _ s, by rw [emittedAll_messages], rfl⟩

/-- Settles O21: the INIT is a setter of ACC. -/
theorem crc16InitSetsAllOnes : Obligations.Crc16InitSetsAllOnes :=
  ⟨rfl, fun s => ⟨rfl, runCommands_setter_twice (fun _ => rfl) s⟩⟩

/-- Settles O22: the INIT is a setter of ACC, and both updaters are linear, so they keep 0. -/
theorem xmodemInitSetsZero : Obligations.XmodemInitSetsZero :=
  ⟨rfl, fun s => ⟨rfl, runCommands_setter_twice (fun _ => rfl) s⟩, crc16Update_zero, crcXmodemUpdate_zero⟩

/-- Settles O23: LOAD is a setter of ACC like the INIT commands, which set R68's values. -/
theorem loadSetsAnyValue : Obligations.LoadSetsAnyValue :=
  ⟨fun v _ => ⟨rfl, encode_load v⟩, fun _ => ⟨rfl, rfl⟩⟩

/-- Settles O24: two READs are a repeated READ of R31. -/
theorem readReturnsAcc : Obligations.ReadReturnsAcc :=
  ⟨rfl, fun s => ⟨rfl, runCommands_replicate_read 2 s⟩⟩

/-- Settles O40: the empty message's commands are INIT and READ. -/
theorem emptyMessageChecksum : Obligations.EmptyMessageChecksum :=
  ⟨rfl, rfl, fun s => ⟨runCommands_checksumCmds .refl [] s, runCommands_checksumCmds .xmodem [] s⟩⟩

end Sys2Proof.Machine
end

section
/-! The obligation of the exceptions (60_exceptions.md). -/

namespace Sys2Proof.Machine

/-- Settles O28: `exec_eq` gives each command's next state, and the model has no fault to answer. -/
theorem everyCommandCompletes : Obligations.EveryCommandCompletes :=
  ⟨fun i s => ⟨_, exec_eq i s⟩, fun s r => outcome_ne_fault (step s) r⟩

end Sys2Proof.Machine
end

section
/-! The host's contract R102: no planned event is a reserved word. -/

namespace Sys2Proof.Machine

/-- A step takes one event off the host's plans, so it keeps a contract that asks something of each of them. -/
theorem step_keeps_hostContract {s t : State} (h : HostContract s) (ht : step s = .next t) : HostContract t := by
  obtain ⟨-, hpending, -⟩ := stepChangesByCommandOrResetOnly s t ht
  intro e he
  exact h e (List.mem_of_mem_tail (hpending ▸ he))

/-- Only a reserved word is refused, and under the contract the host presents none. -/
theorem step_completes_of_hostContract {s : State} (h : HostContract s) : ∃ t, step s = .next t := by
  cases hstep : step s with
  | next t => exact ⟨t, rfl⟩
  | fault r => exact nomatch r
  | refused r =>
    obtain ⟨w, rest, why, hpending, hreserved, -, -⟩ := stepRefusesExactlyReservedWords.2 s r hstep
    have hlegal : CmdWord.legal w = true := h (.command w) (hpending ▸ List.mem_cons_self)
    simp [hreserved] at hlegal

/-- Settles O47: the step completes, and the plans that are left are among those there were. -/
theorem legalPlansStayLegal : Obligations.LegalPlansStayLegal := by
  intro s h
  obtain ⟨t, ht⟩ := step_completes_of_hostContract h
  exact ⟨t, ht, step_keeps_hostContract h ht⟩

/-- Settles O48: after power-on there are no plans. -/
theorem powerOnPlansAreLegal : Obligations.PowerOnPlansAreLegal :=
  List.forall_mem_nil _

/-- Settles O49, by induction on the number of steps with the contract as the invariant. -/
theorem legalPlansNeverStop : Obligations.LegalPlansNeverStop := by
  intro s h n
  induction n generalizing s with
  | zero => exact ⟨s, rfl⟩
  | succ n ih =>
    obtain ⟨t, ht, hcontract⟩ := legalPlansStayLegal s h
    obtain ⟨u, hu⟩ := ih t hcontract
    exact ⟨u, andThen_eq_next.mpr ⟨t, ht, hu⟩⟩

end Sys2Proof.Machine
end

section
/-! How far a presented command list has come after some of its steps (R104). -/

namespace Sys2Proof.Machine

theorem eventsOf_append (is js : List Instr) : eventsOf (is ++ js) = eventsOf is ++ eventsOf js := List.map_append

/-- Presenting in two parts, the later part first. -/
theorem State.present_present (es fs : List HostEvent) (s : State) : (s.present fs).present es = s.present (es ++ fs) := by
  simp [State.present]

/-- The first steps on a presented list run its first commands, while the others stay presented. -/
theorem runSteps_present_take {n : Nat} {is : List Instr} (hn : n ≤ is.length) (s : State) :
    runSteps n (s.present (eventsOf is)) = runCommands (is.take n) (s.present (eventsOf (is.drop n))) := by
  have hsplit : s.present (eventsOf is) = (s.present (eventsOf (is.drop n))).present (eventsOf (is.take n)) := by
    rw [State.present_present, ← eventsOf_append, List.take_append_drop]
  have hsteps := runSteps_present (is.take n) (s.present (eventsOf (is.drop n)))
  rwa [← hsplit, List.length_take_of_le hn] at hsteps

/-- Settles O37: the steps are the run of the commands, which completes and leaves the host's plans alone. -/
theorem commandsEndAfterAsManySteps : Obligations.CommandsEndAfterAsManySteps :=
  fun is s => ⟨_, (runSteps_present is s).trans (runCommands_eq is s), rfl,
    fun _ hn => ⟨_, (runSteps_present_take hn s).trans (runCommands_eq _ _), rfl⟩⟩

end Sys2Proof.Machine
end

section
/-! What a host relies on across streams: saving by READ and LOAD (R100), and the boot requirement (R96). -/

namespace Sys2Proof.Machine

/-- Settles O42: the READ emits the ACC that the LOAD puts back, whatever the commands in between leave. -/
theorem savedStreamContinues : Obligations.SavedStreamContinues :=
  fun _ _ js s => ⟨emittedAll js s.acc, by simp [runCommands_eq]⟩

/-- R96: the first command of a list that keeps the boot requirement sets ACC to a value of its own and does nothing else. -/
theorem exec_setter_of_keepsBoot {i : Instr} {is : List Instr} (h : keepsBoot (i :: is) = true) :
    ∃ v, ∀ s, exec i s = .next (s.setAcc v) := by
  cases i with
  | crc16Init | xmodemInit | load v => exact ⟨_, fun _ => rfl⟩
  | crc16Update d | xmodemUpdate d | read => exact absurd h Bool.false_ne_true

/-- A list that begins with a setter of ACC runs the same from every ACC. -/
theorem runCommands_cons_setter {i : Instr} {v : Word} (hi : ∀ s, exec i s = .next (s.setAcc v)) (is : List Instr)
    (s : State) (a : Word) : runCommands (i :: is) { s with acc := a } = runCommands (i :: is) s := by
  rw [runCommands, runCommands, hi, hi]
  rfl

/-- The boot requirement asks of a first command what both contracts together ask of it before anything is begun. -/
theorem keepsBoot_cons (i : Instr) (is : List Instr) : keepsBoot (i :: is) = (commandKeeps i .unbegun).isSome := by
  cases i <;> rfl

theorem keepsBoot_of_keepsContracts {is : List Instr} (h : keepsContracts .unbegun is = true) : keepsBoot is = true := by
  cases is with
  | nil => rfl
  | cons i is =>
    rw [keepsContracts] at h
    rw [keepsBoot_cons]
    cases hi : commandKeeps i .unbegun with
    | some st => rfl
    | none => simp [hi] at h

/-- Settles O46: the first command, if there is one, overwrites the only field in which the two states differ. -/
theorem initialisedRunsForgetAcc : Obligations.InitialisedRunsForgetAcc := by
  refine ⟨fun is s a h => ?_, fun _ => keepsBoot_of_keepsContracts⟩
  cases is with
  | nil => exact ⟨s, { s with acc := a }, rfl, rfl, rfl, fun hne => absurd rfl hne⟩
  | cons i is =>
    obtain ⟨v, hi⟩ := exec_setter_of_keepsBoot h
    have hrun := runCommands_eq (i :: is) s
    exact ⟨_, _, hrun, (runCommands_cons_setter hi is s a).trans hrun, rfl, fun _ => rfl⟩

end Sys2Proof.Machine
end

section
/-! A RESET between commands (R94, R95). -/

namespace Sys2Proof.Machine

theorem runSteps_one (s : State) : runSteps 1 s = step s := by
  rw [runSteps]
  cases step s <;> rfl

theorem step_of_reset {s : State} {rest : List HostEvent} (h : s.pending = .reset :: rest) :
    step s = .next ({ s with pending := rest } : State).takeReset :=
  step_of_event h

/-- Settles O32: the second step finds the command presented in the state that the RESET left. -/
theorem resetDrawsAccAndEmptiesRsp : Obligations.ResetDrawsAccAndEmptiesRsp := by
  refine fun s rest h => ⟨step_of_reset h, fun w more i hrest hi => ?_⟩
  subst hrest
  calc runSteps 2 s
    _ = andThen (step s) (runSteps 1) := rfl
    _ = step ({ s with pending := .command w :: more } : State).takeReset := by
      rw [step_of_reset h, andThen_next, runSteps_one]
    _ = exec i ({ s with pending := more } : State).takeReset := step_of_command rfl hi

end Sys2Proof.Machine
end
